-- ==== Sys2Proof/Word.lean ====
section
/-!
DEFINITION. The words of the 2416: bytes as the ports and links carry them, the 16-bit register of its CRC, and the
type of its numbered tables. Operations on them stand in Sys2Proof/Machine/Table.lean and Machine/Bytes.lean.
-/
namespace Sys2Proof

/-- One byte of a port, a link or the profile store. -/
abbrev Byte := BitVec 8

/-- The register of the 2416's one CRC, a digest, a compare value of a filter (R148). -/
abbrev Word16 := BitVec 16

/-- A table of numbered records: the records that differ from the table's default record, by rising number.
The operations and the canonical form are in Sys2Proof/Machine/Table.lean. -/
abbrev Tab (α : Type) := List (Nat × α)

end Sys2Proof
end

