-- ==== Sys2Proof/Syntax.lean ====
section
/-!
DEFINITION. The commands of the 2416: one constructor of `Instr` for each row of spec/opcode_table.json, with the
values the command or event carries.

A client command (`status` to `unknownCommand`) is one whole, checked COMMAND frame that reaches a port engine: its
port, the TAG of the frame and the payload bytes as Chapter 12 lays them out. The other constructors are the events
the 2416 takes from its lines, its timers, its dock buses and its supplies.
-/
namespace Sys2Proof

/-- The three client ports (R171). -/
inductive Port where
  | ops | deskA | deskB
  deriving DecidableEq, Repr, Inhabited

/-- The two dock racks (R111, R171). -/
inductive Rack where
  | a | b
  deriving DecidableEq, Repr, Inhabited

/-- What a console advertises (R89), what it is granted (R90) and what it acknowledges (R91): the seats, the three
kinds of keys and the events per poll. An advertisement's seats are 0 to 7, its events per poll 1 to 4. -/
structure Abilities where
  seats   : Nat
  outputB : Bool
  relay   : Bool
  mute    : Bool
  events  : Nat
  deriving DecidableEq, Repr, Inhabited

/-- One key event in the list of a STATUS_REPLY (R94, R96). `other` is an event of a kind R96 does not list. -/
inductive KeyEvent where
  | mic (seat : Nat)
  | muteDown (seat : Nat)
  | muteUp (seat : Nat)
  | outputA
  | outputB
  | floorSel
  | relaySel (booth : Nat)
  | previous
  | other (kind : Byte)
  deriving DecidableEq, Repr, Inhabited

/-- The three flash lamps of a console (R40, R41). -/
inductive FlashLamp where
  | occupied | noLanguage | refusal
  deriving DecidableEq, Repr, Inhabited

/-- The stored hire mark of a unit (R108). -/
inductive HireMark where
  | stock | hired
  deriving DecidableEq, Repr, Inhabited

/-- What an IDENT reads from a unit (R108): serial, battery percent, stored hire mark, preset channel. -/
structure Ident where
  serial  : Nat
  battery : Nat
  mark    : HireMark
  preset  : Nat
  deriving DecidableEq, Repr, Inhabited

/-- The outcome of a PROBE, a PRESET or a MARK (R108). -/
inductive DockOutcome where
  | done | noAnswer | lineFault
  deriving DecidableEq, Repr, Inhabited

/-- The outcome of an IDENT, which returns data when it is DONE (R108). -/
inductive IdentOutcome where
  | done (ident : Ident) | noAnswer | lineFault
  deriving DecidableEq, Repr, Inhabited

/-- The contents of the profile store: the profile's bytes in the layout of R208 and the check value (R203). -/
structure StoreImage where
  bytes : List Byte
  check : Word16
  deriving DecidableEq, Repr, Inhabited

/-- A byte of a port's receive line: the value sampled, and whether its stop bit came (R171). -/
structure LineByte where
  value : Byte
  stop  : Bool
  deriving DecidableEq, Repr, Inhabited

/-- The commands and events of the 2416, one for each row of the operation table. -/
inductive Instr where
  -- commands of the client ports: port, TAG, payload
  | status (p : Port) (tag : Byte) (payload : List Byte)
  | read (p : Port) (tag : Byte) (payload : List Byte)
  | readReserve (p : Port) (tag : Byte) (payload : List Byte)
  | reserveDrop (p : Port) (tag : Byte) (payload : List Byte)
  | langDefine (p : Port) (tag : Byte) (payload : List Byte)
  | langRemove (p : Port) (tag : Byte) (payload : List Byte)
  | chanMap (p : Port) (tag : Byte) (payload : List Byte)
  | chanUnmap (p : Port) (tag : Byte) (payload : List Byte)
  | chanMove (p : Port) (tag : Byte) (payload : List Byte)
  | chanFloorfill (p : Port) (tag : Byte) (payload : List Byte)
  | boothConfig (p : Port) (tag : Byte) (payload : List Byte)
  | boothInput (p : Port) (tag : Byte) (payload : List Byte)
  | seatForceTake (p : Port) (tag : Byte) (payload : List Byte)
  | seatForceOff (p : Port) (tag : Byte) (payload : List Byte)
  | tariffWrite (p : Port) (tag : Byte) (payload : List Byte)
  | filterWrite (p : Port) (tag : Byte) (payload : List Byte)
  | clockSet (p : Port) (tag : Byte) (payload : List Byte)
  | dayClose (p : Port) (tag : Byte) (payload : List Byte)
  | receiverEnroll (p : Port) (tag : Byte) (payload : List Byte)
  | receiverRetire (p : Port) (tag : Byte) (payload : List Byte)
  | receiverService (p : Port) (tag : Byte) (payload : List Byte)
  | reportClear (p : Port) (tag : Byte) (payload : List Byte)
  | profileRead (p : Port) (tag : Byte) (payload : List Byte)
  /-- `failure` is what the profile store holds at the read-back when the write into it fails, `none` for a store
  that takes the write (R205). -/
  | profileWrite (p : Port) (tag : Byte) (payload : List Byte) (failure : Option StoreImage)
  | accountOpen (p : Port) (tag : Byte) (payload : List Byte)
  | accountFind (p : Port) (tag : Byte) (payload : List Byte)
  | accountClose (p : Port) (tag : Byte) (payload : List Byte)
  | issue (p : Port) (tag : Byte) (payload : List Byte)
  | settlementTake (p : Port) (tag : Byte) (payload : List Byte)
  | slotClear (p : Port) (tag : Byte) (payload : List Byte)
  | rackReset (p : Port) (tag : Byte) (payload : List Byte)
  | enrollSlot (p : Port) (tag : Byte) (payload : List Byte)
  | accountAdjust (p : Port) (tag : Byte) (payload : List Byte)
  | lossDeclare (p : Port) (tag : Byte) (payload : List Byte)
  /-- A command whose CODE names no command of the 2416 (R177). -/
  | unknownCommand (p : Port) (tag code : Byte) (payload : List Byte)
  -- the port engines' lines
  /-- Bytes received on a port's receive line without a gap of more than 20 ms, and the level of the port's hold input
  meanwhile (true: asserted). -/
  | frameReceived (p : Port) (hold : Bool) (bytes : List LineByte)
  | frameTimeout (p : Port)
  /-- The transmitter ends a frame; `hold` is the level of the hold input as sampled for the next choice (R185). -/
  | frameSent (p : Port) (hold : Bool)
  | holdReleased (p : Port)
  -- the booth link
  | boothSlot (booth : Nat)
  | advertise (booth : Nat) (advert : Abilities)
  | grantAck (booth : Nat) (taken : Abilities)
  | statusReply (booth : Nat) (sequence : Fin 2) (events : List KeyEvent)
  | slotUnanswered (booth : Nat)
  | faultWaitEnd (booth : Nat)
  -- key events of a console
  | mic (booth seat : Nat)
  | muteDown (booth seat : Nat)
  | muteUp (booth seat : Nat)
  | outputA (booth : Nat)
  | outputB (booth : Nat)
  | floorSel (booth : Nat)
  | relaySel (booth source : Nat)
  | previous (booth : Nat)
  -- timers
  | flashTimerExpiry (booth : Nat) (lamp : FlashLamp)
  | secondEvent
  | minuteTick
  | redirectExpiry (channel : Nat)
  | handoverLapse (booth : Nat)
  -- the feed link
  | feedRepeat
  | feedTransmissionEnd
  -- the dock buses
  | scanRound (r : Rack)
  | probeOutcome (r : Rack) (slot : Nat) (outcome : DockOutcome)
  | identOutcome (r : Rack) (slot : Nat) (outcome : IdentOutcome)
  | presetOutcome (r : Rack) (outcome : DockOutcome)
  | markHiredOutcome (r : Rack) (outcome : DockOutcome)
  | returnMarkOutcome (r : Rack) (slot : Nat) (outcome : DockOutcome)
  | repairMarkOutcome (r : Rack) (slot : Nat) (outcome : DockOutcome)
  -- supplies and starts
  /-- `strap` is the INSTALL strap as sampled at power-up (true: tied). -/
  | powerUp (strap : Bool)
  | resetn
  | powerDown
  | retainedMemoryLoss
  deriving DecidableEq, Repr, Inhabited

end Sys2Proof
end

