-- ==== Sys2Proof/WellFormed.lean ====
section
/-!
DEFINITION. Which terms of `Instr` stand for a command or event that can reach the 2416: payloads that a frame can
carry, record numbers within the tables, operands that the fields of the links can hold.
-/
namespace Sys2Proof

/-- A payload fits a frame: at most 250 bytes (R172). -/
def payloadWellFormed (payload : List Byte) : Bool := payload.length ≤ 250

/-- The CODEs that name a command of the 2416 (section 12.3). -/
def knownCodes : List Byte :=
  [0x01, 0x02, 0x03, 0x04,
   0x10, 0x11, 0x12, 0x13, 0x14, 0x15, 0x16, 0x17, 0x18, 0x19, 0x1A, 0x1B, 0x1C, 0x1D, 0x1E, 0x1F,
   0x20, 0x21, 0x22, 0x23,
   0x30, 0x31, 0x32, 0x33, 0x34, 0x35, 0x36,
   0x40, 0x41, 0x42]

/-- A booth number (R25). -/
def boothWellFormed (booth : Nat) : Bool := 1 ≤ booth && booth ≤ 16

/-- A slot number (R111). -/
def slotWellFormed (slot : Nat) : Bool := slot ≤ 31

/-- An advertisement as the link carries it: seats 0 to 7, events per poll 1 to 4 (R89). -/
def advertWellFormed (advert : Abilities) : Bool :=
  advert.seats ≤ 7 && (1 ≤ advert.events && advert.events ≤ 4)

/-- The data an IDENT can return: a serial of 24 bits, a battery percent 0 to 100, a preset channel 0 to 24 (R103,
R105, R108). -/
def identWellFormed (i : Ident) : Bool :=
  i.serial ≤ 16777215 && i.battery ≤ 100 && i.preset ≤ 24

/-- What the profile store can hold: the 15 bytes of a profile and a check value (R203, R208). -/
def storeWellFormed (image : StoreImage) : Bool := image.bytes.length == 15

/-- The command or event can reach the 2416. -/
def Instr.wellFormed : Instr → Bool
  | .status _ _ pl | .read _ _ pl | .readReserve _ _ pl | .reserveDrop _ _ pl => payloadWellFormed pl
  | .langDefine _ _ pl | .langRemove _ _ pl => payloadWellFormed pl
  | .chanMap _ _ pl | .chanUnmap _ _ pl | .chanMove _ _ pl | .chanFloorfill _ _ pl => payloadWellFormed pl
  | .boothConfig _ _ pl | .boothInput _ _ pl => payloadWellFormed pl
  | .seatForceTake _ _ pl | .seatForceOff _ _ pl => payloadWellFormed pl
  | .tariffWrite _ _ pl | .filterWrite _ _ pl => payloadWellFormed pl
  | .clockSet _ _ pl | .dayClose _ _ pl => payloadWellFormed pl
  | .receiverEnroll _ _ pl | .receiverRetire _ _ pl | .receiverService _ _ pl => payloadWellFormed pl
  | .reportClear _ _ pl | .profileRead _ _ pl => payloadWellFormed pl
  | .profileWrite _ _ pl failure => payloadWellFormed pl && failure.all storeWellFormed
  | .accountOpen _ _ pl | .accountFind _ _ pl | .accountClose _ _ pl | .accountAdjust _ _ pl => payloadWellFormed pl
  | .issue _ _ pl | .settlementTake _ _ pl | .slotClear _ _ pl | .rackReset _ _ pl => payloadWellFormed pl
  | .enrollSlot _ _ pl | .lossDeclare _ _ pl => payloadWellFormed pl
  | .unknownCommand _ _ code pl => payloadWellFormed pl && !knownCodes.contains code
  | .frameReceived _ _ _ | .frameTimeout _ | .frameSent _ _ | .holdReleased _ => true
  | .boothSlot b | .slotUnanswered b | .faultWaitEnd b => boothWellFormed b
  | .advertise b advert => boothWellFormed b && advertWellFormed advert
  | .grantAck b taken => boothWellFormed b && advertWellFormed taken
  | .statusReply b _ _ => boothWellFormed b
  | .mic b seat | .muteDown b seat | .muteUp b seat => boothWellFormed b && (1 ≤ seat && seat ≤ 3)
  | .outputA b | .outputB b | .floorSel b | .relaySel b _ | .previous b => boothWellFormed b
  | .flashTimerExpiry b _ | .handoverLapse b => boothWellFormed b
  | .secondEvent | .minuteTick => true
  | .redirectExpiry c => 1 ≤ c && c ≤ 24
  | .feedRepeat | .feedTransmissionEnd => true
  | .scanRound _ | .presetOutcome _ _ | .markHiredOutcome _ _ => true
  | .probeOutcome _ slot _ | .returnMarkOutcome _ slot _ | .repairMarkOutcome _ slot _ => slotWellFormed slot
  | .identOutcome _ slot (.done i) => slotWellFormed slot && identWellFormed i
  | .identOutcome _ slot .noAnswer | .identOutcome _ slot .lineFault => slotWellFormed slot
  | .powerUp _ | .resetn | .powerDown | .retainedMemoryLoss => true

end Sys2Proof
end

