-- ==== Sys2Proof/Decode.lean ====
section
/-!
DEFINITION. Commands spelt as numbers. The operation table of the 2416 gives no row any bits (every row's list of
fields is empty), because its commands are frames and events, not words: no number spells a command. The byte layout
of the client commands' payloads is read where the commands are carried out (Sys2Proof/Machine/Operands.lean), and the
frames that carry them by the port engines (Sys2Proof/Machine/Ports.lean).
-/
namespace Sys2Proof

/-- The command that `w`, taken as `nbits` bits of an operation table's row, spells: none, since no row has bits. -/
def decodeTableWord (_nbits _w : Nat) : Option Instr := none

end Sys2Proof
end

