-- ==== Sys2Proof/Machine/Records.lean ====
section
/-!
DEFINITION. The records the 2416 holds, as the chapters of the manual lay them down, and the notices, replies and
messages it sends. Counts and numbers are natural numbers; their ranges stand in the docstrings and in the invariants
under Sys2Proof/Safety.lean.
-/
namespace Sys2Proof.Machine

-- Chapter 1: languages and channels

/-- A language record (R1). A blank code or label is the empty list. -/
structure Language where
  defined   : Bool
  code      : List Byte
  label     : List Byte
  /-- none, or 1 to 24 -/
  channel   : Option Nat
  /-- none, or booth 1 to 16 -/
  owner     : Option Nat
  /-- 0 to 4,096 -/
  listeners : Nat
  deriving DecidableEq, Repr, Inhabited

/-- The undefined language record (R1). -/
def Language.undefined : Language := ⟨false, [], [], none, none, 0⟩

/-- A channel's state with the fields present in it (R10). -/
inductive ChannelState where
  | free
  | mapped (language : Nat)
  | live (language : Nat)
  /-- target channel 1 to 24, remaining hold 1 to 600 s -/
  | redirect (target hold : Nat)
  deriving DecidableEq, Repr, Inhabited

/-- A channel record (R10). Live-minutes saturate at 4,294,967,295. -/
structure Channel where
  state       : ChannelState
  floorFill   : Bool
  liveMinutes : Nat
  deriving DecidableEq, Repr, Inhabited

/-- A channel that a cold start leaves with the default profile's floor-fill (R24, R203). -/
def Channel.initial : Channel := ⟨.free, true, 0⟩

-- The feed link

/-- A channel's feed source (R20). -/
inductive FeedSource where
  | silent | floor | booth (b : Nat)
  deriving DecidableEq, Repr, Inhabited

/-- A channel entry of the feed table (R21). -/
structure FeedEntry where
  source : FeedSource
  code   : List Byte
  target : Nat
  deriving DecidableEq, Repr, Inhabited

/-- A booth's input, a stack entry or a crosspoint (R65, R75, R21). -/
inductive Input where
  | floor | relay (b : Nat)
  deriving DecidableEq, Repr, Inhabited

/-- The feed table: the entries of channels 0 to 24 and the crosspoints of booths 1 to 16 (R21). -/
structure FeedTable where
  channels    : List FeedEntry
  crosspoints : List Input
  deriving DecidableEq, Repr, Inhabited

/-- The feed link engine (R22): the table it last transmitted (or is transmitting), its send-due flag, and whether a
transmission is in progress. -/
structure FeedEngine where
  last    : FeedTable
  due     : Bool
  sending : Bool
  deriving DecidableEq, Repr, Inhabited

-- Chapters 2 to 5: booths

/-- A seat's state (R27). -/
inductive SeatState where
  | absent | off | live | muted
  deriving DecidableEq, Repr, Inhabited

/-- A seat record (R27). The turn counter saturates at 65,535, the live-minutes at 4,294,967,295. -/
structure Seat where
  state       : SeatState
  turn        : Nat
  overdue     : Bool
  liveMinutes : Nat
  deriving DecidableEq, Repr, Inhabited

/-- A seat after a cold start (R47). -/
def Seat.initial : Seat := ⟨.off, 0, false, 0⟩

/-- The handover mode of a booth (R25). -/
inductive Mode where
  | direct | announced
  deriving DecidableEq, Repr, Inhabited

/-- The configuration half of a booth record (R25). The accepted relay set is the rising list of its members. -/
structure BoothConfig where
  outputA   : Option Nat
  outputB   : Option Nat
  mode      : Mode
  accepted  : List Nat
  /-- 10 to 90 minutes -/
  turnLimit : Nat
  deriving DecidableEq, Repr, Inhabited

/-- The configuration a cold start writes (R25), with the default turn limit of the profile in force. -/
def BoothConfig.initial (turnLimit : Nat) : BoothConfig := ⟨none, none, .announced, [], turnLimit⟩

/-- A booth's link state (R88). -/
inductive LinkState where
  | absent | negotiating | present | faultWait
  deriving DecidableEq, Repr, Inhabited

/-- A link record (R88). -/
structure Link where
  state         : LinkState
  grant         : Option Abilities
  grantPolls    : Nat
  missed        : Nat
  lastSequence  : Fin 2
  waitRemaining : Nat
  deriving DecidableEq, Repr, Inhabited

/-- The link record after a start (R102). -/
def Link.initial : Link := ⟨.absent, none, 0, 0, 1, 0⟩

/-- Which output a booth has selected (R26). -/
inductive Output where
  | a | b
  deriving DecidableEq, Repr, Inhabited

/-- The fields of the handover state REQUESTED (R48). -/
structure Request where
  requester : Nat
  /-- 1 to 60 seconds -/
  window    : Nat
  deriving DecidableEq, Repr, Inhabited

/-- The input history stack, entry 1 on top (R75). -/
structure InputStack where
  e1 : Input
  e2 : Input
  e3 : Input
  e4 : Input
  deriving DecidableEq, Repr, Inhabited

/-- A stack that holds FLOOR in all four places (R77). -/
def InputStack.initial : InputStack := ⟨.floor, .floor, .floor, .floor⟩

/-- The flash timers, in seconds, 0 while stopped (R41). -/
structure Flash where
  occupied   : Nat
  noLanguage : Nat
  refusal    : Nat
  deriving DecidableEq, Repr, Inhabited

/-- A booth record with its link record (R25, R26, R88). `seats` holds seats 1 to 3, `takers` is the rising list of the
booths that take relay from this one. -/
structure Booth where
  config   : BoothConfig
  link     : Link
  /-- The granted abilities the booth record holds while the booth is PRESENT (R26, R45). -/
  granted  : Option Abilities
  selected : Output
  seats    : Tab Seat
  /-- `none` is the handover state NONE (R48). -/
  handover : Option Request
  input    : Input
  takers   : List Nat
  stack    : InputStack
  flash    : Flash
  deriving DecidableEq, Repr, Inhabited

/-- The booth record of a cold start with the default turn limit of 30 minutes (R25, R47, R86, R203). -/
def Booth.initial : Booth :=
  ⟨.initial 30, .initial, none, .a, [], none, .floor, [], .initial, ⟨0, 0, 0⟩⟩

/-- How a lamp is sent to a console (R99). -/
inductive LampLevel where
  | off | lit | flashing
  deriving DecidableEq, Repr, Inhabited

/-- The lamp set of a console (R40, R51, R84, R99). The seat lamps are listed for seats 1 to 3, the relay key lamps for
booths 1 to 16. -/
structure LampSet where
  mic          : List LampLevel
  mute         : List LampLevel
  turn         : List LampLevel
  request      : List LampLevel
  outputA      : LampLevel
  outputB      : LampLevel
  occupied     : LampLevel
  noLanguage   : LampLevel
  refusal      : LampLevel
  floor        : LampLevel
  relayKeys    : List LampLevel
  sourceSilent : LampLevel
  deriving DecidableEq, Repr, Inhabited

/-- The message the booth link engine sends in a slot (R87, R91, R94). -/
inductive LinkMessage where
  | joinProbe
  | grant (abilities : Abilities)
  | poll (acknowledgement : Fin 2) (lamps : LampSet)
  deriving DecidableEq, Repr, Inhabited

-- Chapters 6 to 8: receivers, racks, accounts, settlements

/-- An account reference: record index 0 to 1,023 and generation 0 to 255 (R129). -/
structure AccountRef where
  index      : Nat
  generation : Nat
  deriving DecidableEq, Repr, Inhabited

/-- A hall minute and a hall day. -/
structure Stamp where
  minute : Nat
  day    : Nat
  deriving DecidableEq, Repr, Inhabited

/-- A receiver's state with the fields present in it (R103). -/
inductive ReceiverState where
  | stock
  | pending (account : AccountRef) (language : Nat) (rack : Rack)
  | issued (account : AccountRef) (language : Nat) (rack : Rack) (time : Stamp)
  | lost (account : AccountRef) (rack : Rack)
  | service
  deriving DecidableEq, Repr, Inhabited

/-- An enrolled receiver record (R103): serial 1 to 16,777,214, battery percent, issue count 0 to 65,535. -/
structure Receiver where
  serial  : Nat
  state   : ReceiverState
  battery : Nat
  issues  : Nat
  deriving DecidableEq, Repr, Inhabited

/-- An entry of an account: a receiver record index, and its status, HELD or (if not) PENDING (R130). -/
structure Entry where
  receiver : Nat
  held     : Bool
  deriving DecidableEq, Repr, Inhabited

/-- A tariff class (R132). -/
structure Tariff where
  rate       : Nat
  unit       : Nat
  grace      : Nat
  dayCap     : Nat
  deposit    : Nat
  lossCharge : Nat
  issueLimit : Nat
  deriving DecidableEq, Repr, Inhabited

/-- The cold-start tariff class (R132). -/
def Tariff.initial : Tariff := ⟨0, 60, 0, 0, 0, 0, 1⟩

/-- An OPEN account (R128). The tariff snapshot and the deposit of R134 are the whole class as it stood at opening;
`openedAt` is the desk whose ACCOUNT_OPEN opened it, named by its rack's letter. -/
structure OpenAccount where
  tariffClass : Nat
  snapshot    : Tariff
  running     : Nat
  entries     : List Entry
  served      : Nat
  losses      : Nat
  saturated   : Bool
  opened      : Stamp
  openedAt    : Rack
  digest      : Word16
  deriving DecidableEq, Repr, Inhabited

/-- An account record: its generation, and the account it holds while it is OPEN (R128, R129). -/
structure Account where
  generation : Nat
  account    : Option OpenAccount
  deriving DecidableEq, Repr, Inhabited

/-- A FREE record of generation 0 (R149). -/
def Account.initial : Account := ⟨0, none⟩

/-- A credential filter (R144). -/
structure Filter where
  enabled     : Bool
  offset      : Nat
  mask        : BitVec 32
  compare     : Word16
  lastByte    : Byte
  chain       : Bool
  tariffClass : Nat
  deriving DecidableEq, Repr, Inhabited

/-- The cold-start filter (R144). -/
def Filter.initial : Filter := ⟨false, 0, 0, 0, 0, false, 0⟩

/-- A settlement record (R163). -/
structure Settlement where
  account     : AccountRef
  tariffClass : Nat
  deposit     : Nat
  total       : Nat
  due         : Nat
  refund      : Nat
  served      : Nat
  losses      : Nat
  saturated   : Bool
  rack        : Rack
  closed      : Stamp
  deriving DecidableEq, Repr, Inhabited

/-- The four report counters of a tariff class (R168). -/
structure ClassReport where
  settled  : Nat
  charged  : Nat
  due      : Nat
  refunded : Nat
  deriving DecidableEq, Repr, Inhabited

/-- Report counters after a cold start or a clear (R168, R170). -/
def ClassReport.initial : ClassReport := ⟨0, 0, 0, 0⟩

/-- A slot's state (R111). -/
inductive SlotState where
  | empty | arriving | identifying | occupied | issuing | returning | held | departing | faulted
  deriving DecidableEq, Repr, Inhabited

/-- The pending issue of an ISSUING slot (R111). -/
structure PendingIssue where
  account  : AccountRef
  language : Nat
  deriving DecidableEq, Repr, Inhabited

/-- A slot context (R111). -/
structure Slot where
  state    : SlotState
  ident    : Option Ident
  /-- return minute and day, in RETURNING and HELD -/
  returned : Option Stamp
  issue    : Option PendingIssue
  retry    : Bool
  miss     : Bool
  deriving DecidableEq, Repr, Inhabited

/-- An EMPTY slot with every field cleared (R127). -/
def Slot.initial : Slot := ⟨.empty, none, none, none, false, false⟩

/-- An entry of an issue queue with its progress: the channel its PRESET wrote, once the PRESET is done (R119, R120). -/
structure QueuedIssue where
  slot     : Nat
  account  : AccountRef
  language : Nat
  preset   : Option Nat
  deriving DecidableEq, Repr, Inhabited

/-- A dock transaction with the data it writes (R108). MARK stock is told apart by the work it serves: a return
(R150) or the repair of an arrival (R117). -/
inductive Transaction where
  | probe (slot : Nat)
  | ident (slot : Nat)
  | preset (slot channel : Nat) (code : List Byte)
  | markHired (slot : Nat)
  | markReturn (slot : Nat)
  | markRepair (slot : Nat)
  deriving DecidableEq, Repr, Inhabited

/-- A dock bus: idle, busy with a transaction, or with a transaction whose outcome a RACK_RESET has discarded in
advance (R110, R125). -/
inductive Bus where
  | idle
  | busy (t : Transaction)
  | draining (t : Transaction)
  deriving DecidableEq, Repr, Inhabited

/-- A rack engine but for its settlement buffer, which is retained (R111, R112, R119, R206). -/
structure RackEngine where
  slots : Tab Slot
  queue : List QueuedIssue
  /-- the slots due for a probe, rising -/
  due   : List Nat
  bus   : Bus
  deriving DecidableEq, Repr, Inhabited

-- Chapters 9 and 10: ports

/-- The result codes (R180). -/
inductive Result where
  | ok | accepted | denied | badArg | noRecord | wrongState | reservationLost | limit | settleBusy | exists
  | noChannel | lowBattery | queueFull | holdsUnits
  deriving DecidableEq, Repr, Inhabited

/-- The causes carried by notices and replies (section 12.2). -/
inductive Cause where
  | removed | lineFault | reset | expired | unmapped | notUnderstood | sourceLost | noAnswer | restarted
  | self | notPresent | loop | tooDeep | takerAbsent | storeFault
  deriving DecidableEq, Repr, Inhabited

/-- The outcomes carried by replies (section 12.2). -/
inductive SeatOutcome where
  | onAir | transferred | alreadyOnAir | occupied | noLanguage | selected | unchanged
  deriving DecidableEq, Repr, Inhabited

/-- The kinds of start (R206). -/
inductive StartKind where
  | cold | warm
  deriving DecidableEq, Repr, Inhabited

/-- A reply: its result code and the bytes that follow it in the payload (R179, R209). -/
structure Reply where
  result : Result
  fields : List Byte
  deriving DecidableEq, Repr, Inhabited

/-- The kinds of dock transactions as SLOT_FAULTED names them (section 12.2). -/
inductive TransactionKind where
  | probe | ident | preset | mark
  deriving DecidableEq, Repr, Inhabited

/-- A notice with its contents, fixed when it is formed (R183, section 12.5). -/
inductive Notice where
  | channelChanged (channel : Nat) (contents : Channel)
  | redirectEnded (channel target : Nat) (cause : Cause)
  | ownerChanged (language : Nat) (former new : Option Nat)
  | boothJoined (booth : Nat) (grant : Abilities)
  | boothLost (booth : Nat) (cause : Cause) (seat : Option Nat)
  | joinFault (booth seats : Nat)
  | handoverDone (booth outgoing incoming turn : Nat)
  | handoverLapsed (booth requester : Nat) (onAir : Option Nat)
  | turnOverdue (booth seat turn : Nat)
  | relayFollowed (taker source language : Nat)
  | relayDropped (taker source : Nat) (cause : Cause)
  | clockSuspect (time : Stamp) (kind : StartKind)
  | unitFound (rack : Rack) (slot serial index : Nat) (account : AccountRef)
  | slotArrived (slot serial index : Nat) (state : ReceiverState) (battery : Nat)
  | slotLeft (slot : Nat) (serial : Option Nat)
  | foreignUnit (slot serial battery : Nat)
  | issueDone (slot serial : Nat) (account : AccountRef) (language channel : Nat)
  | issueFailed (slot serial : Nat) (account : AccountRef) (language : Nat) (cause : Cause)
  | slotFaulted (slot : Nat) (kind : TransactionKind)
  | returnDone (slot serial : Nat) (account : AccountRef) (charge : Nat) (closed : Bool)
  | returnHeld (slot serial : Nat) (account : AccountRef)
  | returnAbandoned (slot serial : Nat) (account : AccountRef) (cause : Cause)
  | settlementReady (account : AccountRef) (due refund : Nat)
  deriving DecidableEq, Repr, Inhabited

/-- A frame on a transmit line (R172, R185): the reply to a command, or a notice with its overflow flag. -/
inductive OutFrame where
  | reply (tag code : Byte) (reply : Reply)
  | notice (n : Notice) (overflow : Bool)
  deriving DecidableEq, Repr, Inhabited

/-- A received command: TAG, CODE and payload of its frame (R172, R174). -/
structure Command where
  tag     : Byte
  code    : Byte
  payload : List Byte
  deriving DecidableEq, Repr, Inhabited

/-- The command in hand (R176) with its reply, formed in the command's own step. `ahead` counts the queued notices that
joined the queue before the reply was formed, and `begun` says that the reply's transmission has begun (R185). -/
structure InHand where
  tag   : Byte
  code  : Byte
  reply : Reply
  ahead : Nat
  begun : Bool
  deriving DecidableEq, Repr, Inhabited

/-- The framer of a port (R173): HUNTING, or COLLECTING before LEN, or COLLECTING with the number of bytes still to
come and the bytes stored so far (LEN first). A frame is spoilt when a byte of it has been dropped (R175) or came with a
missing stop bit (R171); it will fail its check. -/
inductive Framer where
  | hunting
  | expectLen (spoilt : Bool)
  | collecting (remaining : Nat) (stored : List Byte) (spoilt : Bool)
  deriving DecidableEq, Repr, Inhabited

/-- The records a reservation can name (R187). An account is named by its index here. -/
inductive RecordName where
  | language (index : Nat)
  | channel (number : Nat)
  | booth (number : Nat)
  | account (index : Nat)
  | tariff (number : Nat)
  deriving DecidableEq, Repr, Inhabited

/-- A valid reservation (R187). The generation is used for an account alone and is 0 for the other kinds. -/
structure Reservation where
  record     : RecordName
  generation : Nat
  deriving DecidableEq, Repr, Inhabited

/-- The state of a port engine (R171). -/
structure PortState where
  framer      : Framer
  /-- the received commands waiting in the receive buffer, oldest first, each as its stored bytes from LEN to the CRC -/
  received    : List (List Byte)
  frameError  : Bool
  inHand      : Option InHand
  /-- the notice queue, oldest first -/
  notices     : List Notice
  overflow    : Bool
  /-- the frame on the transmit line, none while the transmitter is idle -/
  sending     : Option OutFrame
  /-- the level of the port's hold input (true: asserted) -/
  hold        : Bool
  reservation : Option Reservation
  /-- the presence latch of each booth (R100) -/
  presence    : Tab Bool
  /-- the fault latch of each booth (R101) -/
  faults      : Tab Bool
  deriving DecidableEq, Repr, Inhabited

/-- A port engine after a start (R186), with its hold input at the level it has. -/
def PortState.start (hold : Bool) : PortState :=
  ⟨.hunting, [], false, none, [], false, none, hold, none, [], []⟩

-- Chapter 11: profile and starts

/-- The run state of the part: unpowered, INSTALL or HALL (R182, R204, R206). -/
inductive RunState where
  | off | install | hall
  deriving DecidableEq, Repr, Inhabited

/-- The profile in force (R203). -/
structure Profile where
  booths           : Nat
  seatCap          : Nat
  channels         : Nat
  racks            : Nat
  slots            : Nat
  handoverWindow   : Nat
  redirectHold     : Nat
  turnLimit        : Nat
  batteryThreshold : Nat
  serviceInterval  : Nat
  relayDepth       : Nat
  floorFill        : Bool
  /-- 0 for 115,200 bit/s, 1 for 460,800 bit/s -/
  portRate         : Nat
  deriving DecidableEq, Repr, Inhabited

/-- The defaults of the profile (R203). -/
def Profile.default : Profile := ⟨16, 3, 24, 2, 32, 20, 90, 30, 40, 0, 2, true, 0⟩

/-- The part of a booth record that retained memory holds (R206): the configuration and the seat live-minutes. -/
structure RetainedBooth where
  config  : BoothConfig
  minutes : Tab Nat
  deriving DecidableEq, Repr, Inhabited

/-- The contents of retained memory but for its marker (R206). -/
structure Retained where
  languages : Tab Language
  channels  : Tab Channel
  booths    : Tab RetainedBooth
  receivers : Tab (Option Receiver)
  accounts  : Tab Account
  tariffs   : Tab Tariff
  filters   : Tab Filter
  bufferA   : Option Settlement
  bufferB   : Option Settlement
  reports   : Tab ClassReport
  minute    : Nat
  day       : Nat
  suspect   : Bool
  deriving DecidableEq, Repr, Inhabited

end Sys2Proof.Machine
end

