-- ==== Sys2Proof/Config.lean ====
section
/-!
DEFINITION. What the manual leaves open and the model leaves free, and the limits the manual names.
-/
namespace Sys2Proof.Config

open Sys2Proof.Machine

/-- FREE VALUE. What retained memory holds after its `n`-th loss (RETAINED_MEMORY_LOSS). The manual says that the
retained records are lost and states no contents (R206). No statement rests on what this is (log entry 4). -/
opaque lostMemory (n : Nat) : Retained

/-- The highest hall minute (R198). -/
def topMinute : Nat := 16777215

/-- The highest hall day (R198). -/
def topDay : Nat := 65535

/-- The ceiling of money and of 32-bit counters (R131, R155, R168). -/
def top32 : Nat := 4294967295

/-- The highest turn counter and issue count (R27, R103). -/
def top16 : Nat := 65535

/-- The highest serial an enrolled receiver can have (R103). -/
def topSerial : Nat := 16777214

/-- The most notices a notice queue holds (R183). -/
def noticeLimit : Nat := 16

/-- The bytes a receive buffer holds (R175). -/
def bufferBytes : Nat := 256

/-- The issues an issue queue holds (R119). -/
def queueLimit : Nat := 4

/-- The cycles of a booth's wait in FAULT_WAIT (R89, R93). -/
def faultWaitCycles : Nat := 200

/-- The seconds a flash lamp flashes (R41). -/
def flashSeconds : Nat := 2

end Sys2Proof.Config
end

