-- ==== Sys2Proof/Machine/Bytes.lean ====
section
/-!
DEFINITION. Fields as bytes (R207) and the 2416's one CRC (R148).
-/
namespace Sys2Proof.Machine

/-- A number as one byte. -/
def byte1 (n : Nat) : List Byte := [BitVec.ofNat 8 n]

/-- A number as two bytes, high byte first (R207). -/
def byte2 (n : Nat) : List Byte := [BitVec.ofNat 8 (n / 256), BitVec.ofNat 8 n]

/-- A number as three bytes, high byte first (R207). -/
def byte3 (n : Nat) : List Byte := BitVec.ofNat 8 (n / 65536) :: byte2 n

/-- A number as four bytes, high byte first (R207). -/
def byte4 (n : Nat) : List Byte := BitVec.ofNat 8 (n / 16777216) :: byte3 n

/-- A yes/no field: 00H for no, 01H for yes (R207). -/
def byteFlag (b : Bool) : List Byte := [if b then 0x01 else 0x00]

/-- A one-byte index that may be none: 0FFH for none (R207). -/
def byteIndex : Option Nat → List Byte
  | none => [0xFF]
  | some n => byte1 n

/-- The number two bytes carry, high byte first (R207). -/
def num2 (hi lo : Byte) : Nat := hi.toNat * 256 + lo.toNat

/-- The number three bytes carry. -/
def num3 (a b c : Byte) : Nat := a.toNat * 65536 + num2 b c

/-- The number four bytes carry. -/
def num4 (a b c d : Byte) : Nat := a.toNat * 16777216 + num3 b c d

/-- The signed amount four bytes carry, two's complement (R207). -/
def signed4 (a b c d : Byte) : Int :=
  if num4 a b c d < 2147483648 then Int.ofNat (num4 a b c d) else Int.ofNat (num4 a b c d) - 4294967296

/-- A yes/no byte: other values than 00H and 01H are refused (R207). -/
def flagOf (b : Byte) : Option Bool :=
  if b = 0x00 then some false else if b = 0x01 then some true else none

/-- An index byte that may be none (R207). -/
def indexOf (b : Byte) : Option Nat := if b = 0xFF then none else some b.toNat

/-- One data bit taken into the CRC register (R148): the top bit is compared with the data bit, the register is
shifted left, and 1021H is added modulo 2 if they differed. -/
def crcBit (r : Word16) (bit : Bool) : Word16 :=
  if r.getLsbD 15 = bit then r <<< 1 else (r <<< 1) ^^^ 0x1021#16

/-- One byte taken into the CRC register, most significant bit first (R148). -/
def crcByte (r : Word16) (b : Byte) : Word16 :=
  [7, 6, 5, 4, 3, 2, 1, 0].foldl (fun r i => crcBit r (b.getLsbD i)) r

/-- The CRC register after the bytes, from a given register value (R146, R148). -/
def crcFrom (r : Word16) (bytes : List Byte) : Word16 := bytes.foldl crcByte r

/-- The CRC of a list of bytes: the register preset to FFFFH (R148). -/
def crc16 (bytes : List Byte) : Word16 := crcFrom 0xFFFF#16 bytes

/-- A CRC as carried in a frame or message: high byte first (R148). -/
def crcBytes (c : Word16) : List Byte := byte2 c.toNat

end Sys2Proof.Machine
end

