-- ==== Sys2Proof/Machine/State.lean ====
section
/-!
DEFINITION. The state of the 2416, the reasons it could stop, and its state after reset.
-/
namespace Sys2Proof.Machine

/-- The state of the 2416, with the queue of the commands and events that wait to be taken. INVENTORY.md lists every
field with the rule that names it. -/
@[ext]
structure State where
  /-- the model's queue of waiting commands, first in, first out -/
  pending      : List Instr
  -- the part
  run          : RunState
  startKind    : StartKind
  -- retained memory (R206)
  marker       : Bool
  languages    : Tab Language
  channels     : Tab Channel
  /-- booth configurations and seat live-minutes are retained, the rest of a booth record is working state -/
  booths       : Tab Booth
  receivers    : Tab (Option Receiver)
  accounts     : Tab Account
  tariffs      : Tab Tariff
  filters      : Tab Filter
  bufferA      : Option Settlement
  bufferB      : Option Settlement
  reports      : Tab ClassReport
  minute       : Nat
  day          : Nat
  suspect      : Bool
  -- working state
  second       : Nat
  rackA        : RackEngine
  rackB        : RackEngine
  opsPort      : PortState
  deskAPort    : PortState
  deskBPort    : PortState
  feed         : FeedEngine
  /-- the booth whose slot the booth link is in and the message sent in it, none while the line is silent (R87) -/
  line         : Option (Nat × LinkMessage)
  profile      : Profile
  clamped      : Bool
  -- the profile store (R203)
  store        : StoreImage
  /-- the model's own: what the store holds after a write that fails, none while it takes writes (R205) -/
  storeFailure : Option StoreImage
  /-- the model's own: how many free values have been taken -/
  freeCount    : Nat
  deriving DecidableEq, Repr, Inhabited

/-- The faults of a step. There is none: the manual names no event that stops the 2416, and every command and event of
the operation table has an effect (or is said to have none). The type is empty. -/
inductive Fault where
  deriving DecidableEq, Repr

/-- The refusals of a step. -/
inductive Refusal where
  /-- Raised by `exec` alone, for a row of the operation table that has no meaning in the model; safe, since nothing can
  be proved of a step that is refused. No arm of `exec` raises it now. -/
  | notModelled (mnemonic : String)
  deriving DecidableEq, Repr

/-- The profile store after reset: blank, as an erased store is (R203). DESIGN CHOICE, log entry 2. -/
def erasedStore : StoreImage := ⟨List.replicate 15 0xFF, 0xFFFF⟩

/-- The feed table of a hall in which nothing is bound and no booth is on relay (R20, R21). -/
def FeedTable.initial : FeedTable :=
  ⟨⟨.floor, [], 0⟩ :: List.replicate 24 ⟨.silent, [], 0⟩, List.replicate 16 .floor⟩

/-- A fitted rack engine whose first scan round has just begun: every slot is due and the PROBE of slot 0 is in flight
(R110, R112, R127). -/
def RackEngine.initial : RackEngine :=
  ⟨[], [], (List.range 32).drop 1, .busy (.probe 0)⟩

/-- The machine right after reset: a cold hall start (R206) with a blank profile store, so that the profile in force
is the defaults (R203). The hold inputs are released (DESIGN CHOICE, log entry 3). -/
def State.reset : State where
  pending      := []
  run          := .hall
  startKind    := .cold
  marker       := true
  languages    := []
  channels     := []
  booths       := []
  receivers    := []
  accounts     := []
  tariffs      := []
  filters      := []
  bufferA      := none
  bufferB      := none
  reports      := []
  minute       := 0
  day          := 0
  suspect      := true
  second       := 0
  rackA        := .initial
  rackB        := .initial
  opsPort      := .start false
  deskAPort    := .start false
  deskBPort    := .start false
  feed         := ⟨.initial, false, true⟩
  line         := none
  profile      := .default
  clamped      := false
  store        := erasedStore
  storeFailure := none
  freeCount    := 0

end Sys2Proof.Machine
end

