-- ==== Sys2Proof/Machine/Table.lean ====
section
/-!
DEFINITION. Numbered tables and small sets of numbers as plain data in one canonical form: keys strictly rising, and no
entry equal to the table's default record, so that equal tables are equal lists.
-/
namespace Sys2Proof.Machine

variable {α : Type}

/-- The record at number `k`; an unlisted number holds the default `d`. -/
def tabGet (d : α) : Tab α → Nat → α
  | [], _ => d
  | (j, v) :: rest, k => if j = k then v else tabGet d rest k

/-- The table without any entry at number `k`. -/
def tabErase : Tab α → Nat → Tab α
  | [], _ => []
  | (j, v) :: rest, k => if j = k then tabErase rest k else (j, v) :: tabErase rest k

/-- The table with an entry put at its place in rising order. -/
def tabInsert : Tab α → Nat → α → Tab α
  | [], k, v => [(k, v)]
  | (j, w) :: rest, k, v => if k < j then (k, v) :: (j, w) :: rest else (j, w) :: tabInsert rest k v

/-- The table with the record `v` at number `k`. Writing the default record removes the entry. -/
def tabSet [DecidableEq α] (d : α) (t : Tab α) (k : Nat) (v : α) : Tab α :=
  if v = d then tabErase t k else tabInsert (tabErase t k) k v

/-- Every entry's number is above `k` and the numbers rise strictly. -/
def tabRising (k : Nat) : Tab α → Bool
  | [] => true
  | (j, _) :: rest => decide (k < j) && tabRising j rest

/-- The canonical form of a table. -/
def tabWf [DecidableEq α] (d : α) : Tab α → Bool
  | [] => true
  | (j, v) :: rest => decide (v ≠ d) && tabRising j rest && rest.all (fun e => decide (e.2 ≠ d))

/-- A set of numbers, as the rising list of its members, with `k` in it. -/
def setAdd (k : Nat) : List Nat → List Nat
  | [] => [k]
  | j :: rest => if k < j then k :: j :: rest else if k = j then j :: rest else j :: setAdd k rest

/-- The set without `k`. -/
def setDel (k : Nat) (l : List Nat) : List Nat := l.filter (fun j => j ≠ k)

/-- The set of the numbers of a list. -/
def setOf : List Nat → List Nat
  | [] => []
  | k :: rest => setAdd k (setOf rest)

/-- The first number from `i` on, `fuel` numbers long, for which `ok` holds. -/
def firstFrom (ok : Nat → Bool) : Nat → Nat → Option Nat
  | 0, _ => none
  | fuel + 1, i => if ok i then some i else firstFrom ok fuel (i + 1)

/-- A sum that saturates at its highest value. -/
def satAdd (top a b : Nat) : Nat := min top (a + b)

end Sys2Proof.Machine
end

