-- ==== Sys2Proof/Machine/Ops.lean ====
section
/-!
DEFINITION. The named operations over the records of the 2416: reading and writing a record (with the reservation law
of Chapter 10), the notice queues and the transmit lines of Chapter 9.
-/
namespace Sys2Proof.Machine

/-- The outcome of a step of the 2416. -/
abbrev Outcome := Host.Outcome State Fault Refusal

-- Reading records

/-- Language record `i` (R1). -/
def State.language (s : State) (i : Nat) : Language := tabGet .undefined s.languages i

/-- Channel record `c` (R10). -/
def State.channel (s : State) (c : Nat) : Channel := tabGet .initial s.channels c

/-- Booth record `b` (R25, R26). -/
def State.booth (s : State) (b : Nat) : Booth := tabGet .initial s.booths b

/-- Receiver record `i`, none while it is free (R103). -/
def State.receiver (s : State) (i : Nat) : Option Receiver := tabGet none s.receivers i

/-- Account record `i` (R128). -/
def State.account (s : State) (i : Nat) : Account := tabGet .initial s.accounts i

/-- Tariff class `k` (R132). -/
def State.tariff (s : State) (k : Nat) : Tariff := tabGet .initial s.tariffs k

/-- Credential filter `k` (R144). -/
def State.filter (s : State) (k : Nat) : Filter := tabGet .initial s.filters k

/-- The report counters of class `k` (R168). -/
def State.report (s : State) (k : Nat) : ClassReport := tabGet .initial s.reports k

/-- Seat `n` of a booth (R27). -/
def Booth.seat (b : Booth) (n : Nat) : Seat := tabGet .initial b.seats n

/-- The rack engine of a rack (R111). -/
def State.rack (s : State) : Rack → RackEngine
  | .a => s.rackA
  | .b => s.rackB

/-- The settlement buffer of a rack (R164). -/
def State.buffer (s : State) : Rack → Option Settlement
  | .a => s.bufferA
  | .b => s.bufferB

/-- The port engine of a port (R171). -/
def State.port (s : State) : Port → PortState
  | .ops => s.opsPort
  | .deskA => s.deskAPort
  | .deskB => s.deskBPort

/-- Slot context `n` of a rack (R111). -/
def State.slot (s : State) (r : Rack) (n : Nat) : Slot := tabGet .initial (s.rack r).slots n

/-- The hall minute and hall day (R198). -/
def State.now (s : State) : Stamp := ⟨s.minute, s.day⟩

/-- A desk port's own rack (R171). -/
def ownRack : Port → Option Rack
  | .ops => none
  | .deskA => some .a
  | .deskB => some .b

/-- The desk port of a rack (R171). -/
def deskOf : Rack → Port
  | .a => .deskA
  | .b => .deskB

/-- The rack is fitted by the profile in force (R111, R203). -/
def State.rackFitted (s : State) (r : Rack) : Bool :=
  match r with
  | .a => true
  | .b => 2 ≤ s.profile.racks

/-- The slot is fitted: its rack is, and its number is below the slots fitted (R111). -/
def State.slotFitted (s : State) (r : Rack) (n : Nat) : Bool := s.rackFitted r && n < s.profile.slots

/-- The booth is fitted by the profile in force (R25). -/
def State.boothFitted (s : State) (b : Nat) : Bool := 1 ≤ b && b ≤ s.profile.booths

-- Plain writes

/-- Write a port engine. -/
def State.setPort (s : State) (p : Port) (q : PortState) : State :=
  match p with
  | .ops => { s with opsPort := q }
  | .deskA => { s with deskAPort := q }
  | .deskB => { s with deskBPort := q }

/-- Write a rack engine. -/
def State.setRack (s : State) (r : Rack) (e : RackEngine) : State :=
  match r with
  | .a => { s with rackA := e }
  | .b => { s with rackB := e }

/-- Write a settlement buffer. -/
def State.setBuffer (s : State) (r : Rack) (v : Option Settlement) : State :=
  match r with
  | .a => { s with bufferA := v }
  | .b => { s with bufferB := v }

/-- Write a receiver record. Receiver records are not reservable (R194). -/
def State.setReceiver (s : State) (i : Nat) (v : Option Receiver) : State :=
  { s with receivers := tabSet none s.receivers i v }

/-- Write a filter. Filters are not reservable (R144). -/
def State.setFilter (s : State) (k : Nat) (v : Filter) : State :=
  { s with filters := tabSet .initial s.filters k v }

/-- Write the report counters of a class. They are not reservable (R168). -/
def State.setReport (s : State) (k : Nat) (v : ClassReport) : State :=
  { s with reports := tabSet .initial s.reports k v }

/-- Write seat `n` of a booth record. -/
def Booth.setSeat (b : Booth) (n : Nat) (v : Seat) : Booth :=
  { b with seats := tabSet .initial b.seats n v }

-- Reservations (Chapter 10)

/-- The port's reservation, cleared if it names the record (R190). -/
def PortState.clearOn (r : RecordName) (q : PortState) : PortState :=
  match q.reservation with
  | none => q
  | some v => if v.record = r then { q with reservation := none } else q

/-- Every port's reservation on the record is cleared, of all three ports at once (R190). -/
def State.clearReservations (r : RecordName) (s : State) : State :=
  { s with
    opsPort := s.opsPort.clearOn r
    deskAPort := s.deskAPort.clearOn r
    deskBPort := s.deskBPort.clearOn r }

/-- The reserved view of a channel: all but the remaining hold and the live-minutes (R191). -/
def Channel.view (c : Channel) : ChannelState × Bool :=
  (match c.state with
   | .redirect target _ => .redirect target 0
   | other => other, c.floorFill)

/-- The reserved view of a booth (R192): configuration, seat states, selected output, handover state with requester,
input, taker set and link state. -/
structure BoothView where
  config    : BoothConfig
  seats     : List SeatState
  selected  : Output
  requester : Option Nat
  input     : Input
  takers    : List Nat
  link      : LinkState
  deriving DecidableEq, Repr

/-- The reserved view of a booth record (R192). -/
def Booth.view (b : Booth) : BoothView :=
  ⟨b.config, [(b.seat 1).state, (b.seat 2).state, (b.seat 3).state], b.selected,
   b.handover.map (·.requester), b.input, b.takers, b.link.state⟩

/-- The reserved view of an account: its state with its generation, the entry list, the running charge, the served and
loss counts and the saturated flag (R193). -/
structure AccountView where
  generation : Nat
  opened     : Bool
  entries    : List Entry
  running    : Nat
  served     : Nat
  losses     : Nat
  saturated  : Bool
  deriving DecidableEq, Repr

/-- The reserved view of an account record (R193). -/
def Account.view (a : Account) : AccountView :=
  match a.account with
  | none => ⟨a.generation, false, [], 0, 0, 0, false⟩
  | some o => ⟨a.generation, true, o.entries, o.running, o.served, o.losses, o.saturated⟩

/-- Write a language record. Every field is in its reserved view, so that any change clears the reservations on it
(R191). -/
def State.setLanguage (s : State) (i : Nat) (v : Language) : State :=
  let t := { s with languages := tabSet .undefined s.languages i v }
  if v = s.language i then t else t.clearReservations (.language i)

/-- Write a channel record; a change of its reserved view clears the reservations on it (R191). -/
def State.setChannel (s : State) (c : Nat) (v : Channel) : State :=
  let t := { s with channels := tabSet .initial s.channels c v }
  if v.view = (s.channel c).view then t else t.clearReservations (.channel c)

/-- Write a booth record; a change of its reserved view clears the reservations on it (R192). -/
def State.setBooth (s : State) (b : Nat) (v : Booth) : State :=
  let t := { s with booths := tabSet .initial s.booths b v }
  if v.view = (s.booth b).view then t else t.clearReservations (.booth b)

/-- Write an account record; a change of its reserved view clears the reservations on it (R193). -/
def State.setAccount (s : State) (i : Nat) (v : Account) : State :=
  let t := { s with accounts := tabSet .initial s.accounts i v }
  if v.view = (s.account i).view then t else t.clearReservations (.account i)

/-- Write a tariff class. Every accepted write clears the reservations on it, equal or not (R133, R194). -/
def State.setTariff (s : State) (k : Nat) (v : Tariff) : State :=
  { s with tariffs := tabSet .initial s.tariffs k v }.clearReservations (.tariff k)

/-- The port's reservation is valid on that record, with that generation (R195). -/
def State.reserved (s : State) (p : Port) (r : Reservation) : Bool := (s.port p).reservation = some r

/-- The port's own reservation is cleared (R189, R196). -/
def State.dropReservation (s : State) (p : Port) : State :=
  s.setPort p { s.port p with reservation := none }

-- Transmit lines and notice queues (Chapter 9)

/-- The oldest notice leaves the queue and begins transmission; it carries the overflow latch, which is cleared
(R183, R184). A reply formed after it has one notice less ahead of it. -/
def PortState.sendNotice (q : PortState) : PortState :=
  match q.notices with
  | [] => q
  | n :: rest =>
    { q with
      notices := rest
      sending := some (.notice n q.overflow)
      overflow := false
      inHand := q.inHand.map fun h => { h with ahead := h.ahead - 1 } }

/-- The reply of the command in hand begins transmission. -/
def PortState.sendReply (q : PortState) (h : InHand) : PortState :=
  { q with
    sending := some (.reply h.tag h.code h.reply)
    inHand := some { h with begun := true } }

/-- The port engine chooses the next frame while its transmitter is idle (R185): a waiting reply that no queued notice
precedes, or any waiting reply while the hold input is asserted; otherwise, with the hold input released, the oldest
notice. -/
def PortState.chooseFrame (q : PortState) : PortState :=
  match q.sending with
  | some _ => q
  | none =>
    match q.inHand with
    | some h =>
      if h.begun then (if q.hold then q else q.sendNotice)
      else if h.ahead = 0 || q.hold then q.sendReply h
      else q.sendNotice
    | none => if q.hold then q else q.sendNotice

/-- A notice joins the queue at the tail; if the queue holds 16, the oldest is discarded and the overflow latch is set
(R184). -/
def PortState.enqueue (q : PortState) (n : Notice) : PortState :=
  if q.notices.length < Config.noticeLimit then { q with notices := q.notices ++ [n] }
  else
    { q with
      notices := q.notices.tail ++ [n]
      overflow := true
      inHand := q.inHand.map fun h => { h with ahead := h.ahead - 1 } }

/-- A notice is formed: it joins the queue, and begins transmission at once if the transmitter may send it (R183,
R185). -/
def PortState.post (q : PortState) (n : Notice) : PortState := (q.enqueue n).chooseFrame

/-- A notice to one port. -/
def State.notify (s : State) (p : Port) (n : Notice) : State := s.setPort p ((s.port p).post n)

/-- A notice to the operations port. -/
def State.notifyOps (s : State) (n : Notice) : State := s.notify .ops n

/-- A notice to the desk port of a rack (R126, R169). -/
def State.notifyRack (s : State) (r : Rack) (n : Notice) : State := s.notify (deskOf r) n

end Sys2Proof.Machine
end

