-- ==== Sys2Proof/Machine/Operands.lean ====
section
/-!
DEFINITION. How the fields of a command's payload are read (R207 to R209) and how records, replies and notices are
laid out as bytes (sections 12.2, 12.4, 12.5).
-/
namespace Sys2Proof.Machine

-- Codes (section 12.2)

/-- The value of a result code (R180). -/
def Result.code : Result → Byte
  | .ok => 0x00 | .accepted => 0x01 | .denied => 0x02 | .badArg => 0x03 | .noRecord => 0x04 | .wrongState => 0x05
  | .reservationLost => 0x06 | .limit => 0x07 | .settleBusy => 0x08 | .exists => 0x09 | .noChannel => 0x0A
  | .lowBattery => 0x0B | .queueFull => 0x0C | .holdsUnits => 0x0D

/-- The value of a cause. -/
def Cause.code : Cause → Nat
  | .removed => 1 | .lineFault => 2 | .reset => 3 | .expired => 4 | .unmapped => 5 | .notUnderstood => 6
  | .sourceLost => 7 | .noAnswer => 8 | .restarted => 9 | .self => 10 | .notPresent => 11 | .loop => 12
  | .tooDeep => 13 | .takerAbsent => 14 | .storeFault => 15

/-- The value of an outcome. -/
def SeatOutcome.code : SeatOutcome → Nat
  | .onAir => 1 | .transferred => 2 | .alreadyOnAir => 3 | .occupied => 4 | .noLanguage => 5 | .selected => 6
  | .unchanged => 7

/-- The value of a start kind. -/
def StartKind.code : StartKind → Nat
  | .cold => 0 | .warm => 1

/-- The value of a link state. -/
def LinkState.code : LinkState → Nat
  | .absent => 0 | .negotiating => 1 | .present => 2 | .faultWait => 3

/-- The value of a seat state. -/
def SeatState.code : SeatState → Nat
  | .absent => 0 | .off => 1 | .live => 2 | .muted => 3

/-- The value of a handover mode. -/
def Mode.code : Mode → Nat
  | .direct => 0 | .announced => 1

/-- The value of an output. -/
def Output.code : Output → Nat
  | .a => 0 | .b => 1

/-- The value of an input, a stack entry or a crosspoint. -/
def Input.code : Input → Nat
  | .floor => 0 | .relay b => b

/-- The value of a feed source. -/
def FeedSource.code : FeedSource → Nat
  | .silent => 0 | .floor => 1 | .booth b => 16 + b

/-- The value of a receiver state. -/
def ReceiverState.code : ReceiverState → Nat
  | .stock => 0 | .pending _ _ _ => 1 | .issued _ _ _ _ => 2 | .lost _ _ => 3 | .service => 4

/-- The value of a slot state. -/
def SlotState.code : SlotState → Nat
  | .empty => 0 | .arriving => 1 | .identifying => 2 | .occupied => 3 | .issuing => 4 | .returning => 5
  | .held => 6 | .departing => 7 | .faulted => 8

/-- The value of a hire mark. -/
def markCode : HireMark → Nat
  | .stock => 0 | .hired => 1

/-- The value of a rack (R207). -/
def rackCode : Rack → Nat
  | .a => 0 | .b => 1

/-- The value of a transaction. -/
def TransactionKind.code : TransactionKind → Nat
  | .probe => 0 | .ident => 1 | .preset => 2 | .mark => 3

-- Fields of replies and notices (R207)

/-- An account reference: the index in two bytes, then the generation. -/
def refBytes (r : AccountRef) : List Byte := byte2 r.index ++ byte1 r.generation

/-- An account reference that may be none: 0FFFFFFH for none. -/
def refBytesOpt : Option AccountRef → List Byte
  | none => [0xFF, 0xFF, 0xFF]
  | some r => refBytes r

/-- A rack that may be none: 0FFH for none. -/
def rackBytesOpt (r : Option Rack) : List Byte := byteIndex (r.map rackCode)

/-- Text in a field of `width` bytes: the characters, then 00H in every unused place. -/
def textBytes (width : Nat) (text : List Byte) : List Byte :=
  text ++ List.replicate (width - text.length) 0x00

/-- A hall minute in three bytes and a hall day in two. -/
def stampBytes (t : Stamp) : List Byte := byte3 t.minute ++ byte2 t.day

/-- The code of a channel's state. -/
def ChannelState.code : ChannelState → Nat
  | .free => 0 | .mapped _ => 1 | .live _ => 2 | .redirect _ _ => 3

/-- The language a channel's state names (R10). -/
def ChannelState.language : ChannelState → Option Nat
  | .mapped l | .live l => some l
  | .free | .redirect _ _ => none

/-- The redirect target of a channel's state, 0 when there is none (R207). -/
def ChannelState.target : ChannelState → Nat
  | .redirect t _ => t
  | .free | .mapped _ | .live _ => 0

/-- The remaining hold of a channel's state, 0 when there is none. -/
def ChannelState.hold : ChannelState → Nat
  | .redirect _ h => h
  | .free | .mapped _ | .live _ => 0

/-- A channel's contents as CHANNEL_CHANGED and READ(CHANNEL) carry them: state, language, target, hold, floor-fill. -/
def channelFields (c : Channel) : List Byte :=
  byte1 c.state.code ++ byteIndex c.state.language ++ byte1 c.state.target ++ byte2 c.state.hold
    ++ byteFlag c.floorFill

/-- The granted keys in one byte: bit 0 output B, bit 1 relay, bit 2 mute (section 12.4). -/
def keysByte (a : Abilities) : Nat :=
  (if a.outputB then 1 else 0) + (if a.relay then 2 else 0) + (if a.mute then 4 else 0)

/-- The kind of a notice, its CODE (section 12.5). -/
def Notice.code : Notice → Byte
  | .channelChanged _ _ => 0x80 | .redirectEnded _ _ _ => 0x81 | .ownerChanged _ _ _ => 0x82
  | .boothJoined _ _ => 0x83 | .boothLost _ _ _ => 0x84 | .joinFault _ _ => 0x85
  | .handoverDone _ _ _ _ => 0x86 | .handoverLapsed _ _ _ => 0x87 | .turnOverdue _ _ _ => 0x88
  | .relayFollowed _ _ _ => 0x89 | .relayDropped _ _ _ => 0x8A | .clockSuspect _ _ => 0x8B
  | .unitFound _ _ _ _ _ => 0x8C | .slotArrived _ _ _ _ _ => 0x90 | .slotLeft _ _ => 0x91
  | .foreignUnit _ _ _ => 0x92 | .issueDone _ _ _ _ _ => 0x93 | .issueFailed _ _ _ _ _ => 0x94
  | .slotFaulted _ _ => 0x95 | .returnDone _ _ _ _ _ => 0x96 | .returnHeld _ _ _ => 0x97
  | .returnAbandoned _ _ _ _ => 0x98 | .settlementReady _ _ _ => 0x99

/-- A notice's fields after its flags byte, in the order of section 12.5. -/
def Notice.fields : Notice → List Byte
  | .channelChanged c v => byte1 c ++ channelFields v
  | .redirectEnded c t cause => byte1 c ++ byte1 t ++ byte1 cause.code
  | .ownerChanged l former new => byte1 l ++ byteIndex former ++ byteIndex new
  | .boothJoined b g => byte1 b ++ byte1 g.seats ++ byte1 (keysByte g) ++ byte1 g.events
  | .boothLost b cause seat => byte1 b ++ byte1 cause.code ++ byteIndex seat
  | .joinFault b seats => byte1 b ++ byte1 seats
  | .handoverDone b o i turn => byte1 b ++ byte1 o ++ byte1 i ++ byte2 turn
  | .handoverLapsed b r o => byte1 b ++ byte1 r ++ byteIndex o
  | .turnOverdue b n turn => byte1 b ++ byte1 n ++ byte2 turn
  | .relayFollowed t src l => byte1 t ++ byte1 src ++ byte1 l
  | .relayDropped t src cause => byte1 t ++ byte1 src ++ byte1 cause.code
  | .clockSuspect t kind => stampBytes t ++ byte1 kind.code
  | .unitFound r n serial i ref => byte1 (rackCode r) ++ byte1 n ++ byte3 serial ++ byte2 i ++ refBytes ref
  | .slotArrived n serial i st battery => byte1 n ++ byte3 serial ++ byte2 i ++ byte1 st.code ++ byte1 battery
  | .slotLeft n serial => byte1 n ++ byte3 (serial.getD 0)
  | .foreignUnit n serial battery => byte1 n ++ byte3 serial ++ byte1 battery
  | .issueDone n serial ref l c => byte1 n ++ byte3 serial ++ refBytes ref ++ byte1 l ++ byte1 c
  | .issueFailed n serial ref l cause => byte1 n ++ byte3 serial ++ refBytes ref ++ byte1 l ++ byte1 cause.code
  | .slotFaulted n kind => byte1 n ++ byte1 kind.code
  | .returnDone n serial ref charge closed =>
    byte1 n ++ byte3 serial ++ refBytes ref ++ byte4 charge ++ byteFlag closed
  | .returnHeld n serial ref => byte1 n ++ byte3 serial ++ refBytes ref
  | .returnAbandoned n serial ref cause => byte1 n ++ byte3 serial ++ refBytes ref ++ byte1 cause.code
  | .settlementReady ref due refund => refBytes ref ++ byte4 due ++ byte4 refund

/-- A frame's bytes on the line: SYNC, LEN, TYPE, TAG, CODE, payload, CRC over LEN through the payload (R172). -/
def frameBytes (type tag code : Byte) (payload : List Byte) : List Byte :=
  let body := BitVec.ofNat 8 (payload.length + 3) :: type :: tag :: code :: payload
  0xA5 :: (body ++ crcBytes (crc16 body))

/-- The bytes a port sends for a frame: a reply carries the TAG and CODE of its command, a notice the TAG 0 and a flags
byte whose bit 0 is the overflow flag (R172, R179, R184, R209). -/
def OutFrame.bytes : OutFrame → List Byte
  | .reply tag code r => frameBytes 0x02 tag code (r.result.code :: r.fields)
  | .notice n overflow => frameBytes 0x03 0x00 n.code (byteFlag overflow ++ n.fields)

-- Records (section 12.4)

/-- The language record. -/
def Language.bytes (i : Nat) (l : Language) : List Byte :=
  byte1 i ++ byteFlag l.defined ++ textBytes 3 l.code ++ textBytes 12 l.label ++ byteIndex l.channel
    ++ byteIndex l.owner ++ byte2 l.listeners

/-- The channel record. -/
def Channel.bytes (c : Nat) (v : Channel) : List Byte := byte1 c ++ channelFields v ++ byte4 v.liveMinutes

/-- The configuration as BOOTH_CONFIG carries it from output A on; members beyond the count are 0FFH (R208). -/
def BoothConfig.bytes (v : BoothConfig) : List Byte :=
  byteIndex v.outputA ++ byteIndex v.outputB ++ byte1 v.mode.code ++ byte1 v.accepted.length
    ++ (v.accepted.flatMap byte1 ++ List.replicate (4 - v.accepted.length) 0xFF) ++ byte1 v.turnLimit

/-- One seat of the booth record. -/
def Seat.bytes (n : Seat) : List Byte :=
  byte1 n.state.code ++ byte2 n.turn ++ byteFlag n.overdue ++ byte4 n.liveMinutes

/-- The taker set in two bytes: bit b − 1 for booth b. -/
def takerBytes (takers : List Nat) : List Byte := byte2 ((takers.map fun b => 2 ^ (b - 1)).sum)

/-- The booth record with its three status values (R100). The granted abilities, the events per poll among them, are
those the booth record holds while the booth is PRESENT, 0 otherwise. -/
def Booth.bytes (b : Nat) (v : Booth) (sinceLast fault : Bool) : List Byte :=
  byte1 b ++ v.config.bytes ++ byte1 v.link.state.code
    ++ byte1 ((v.granted.map (·.seats)).getD 0) ++ byte1 ((v.granted.map keysByte).getD 0)
    ++ byte1 ((v.granted.map (·.events)).getD 0) ++ byte1 v.selected.code
    ++ (v.seat 1).bytes ++ (v.seat 2).bytes ++ (v.seat 3).bytes
    ++ byte1 (if v.handover.isSome then 1 else 0) ++ byteIndex (v.handover.map (·.requester))
    ++ byte1 ((v.handover.map (·.window)).getD 0)
    ++ byte1 v.input.code ++ takerBytes v.takers
    ++ byte1 v.stack.e1.code ++ byte1 v.stack.e2.code ++ byte1 v.stack.e3.code ++ byte1 v.stack.e4.code
    ++ byteFlag (decide (v.link.state = .present)) ++ byteFlag sinceLast ++ byteFlag fault

/-- The account reference a receiver's state names (R103). -/
def ReceiverState.account : ReceiverState → Option AccountRef
  | .pending r _ _ | .issued r _ _ _ | .lost r _ => some r
  | .stock | .service => none

/-- The language a receiver's state names (R103). -/
def ReceiverState.language : ReceiverState → Option Nat
  | .pending _ l _ | .issued _ l _ _ => some l
  | .stock | .lost _ _ | .service => none

/-- The issuing rack a receiver's state names (R103). -/
def ReceiverState.rack : ReceiverState → Option Rack
  | .pending _ _ r | .issued _ _ r _ | .lost _ r => some r
  | .stock | .service => none

/-- The issue minute and day of an ISSUED receiver, 0 otherwise (R103). -/
def ReceiverState.time : ReceiverState → Stamp
  | .issued _ _ _ t => t
  | .stock | .pending _ _ _ | .lost _ _ | .service => ⟨0, 0⟩

/-- The receiver record. -/
def Receiver.bytes (i : Nat) (v : Receiver) : List Byte :=
  byte2 i ++ byte3 v.serial ++ byte1 v.state.code ++ refBytesOpt v.state.account ++ byteIndex v.state.language
    ++ rackBytesOpt v.state.rack ++ stampBytes v.state.time ++ byte1 v.battery ++ byte2 v.issues

/-- One entry of an account: index and status, PENDING 0 or HELD 1. -/
def Entry.bytes (e : Entry) : List Byte := byte2 e.receiver ++ byte1 (if e.held then 1 else 0)

/-- The four entry places of the account record; an unused place is 0FFFFH with status 00H. -/
def entryBytes (entries : List Entry) : List Byte :=
  entries.flatMap Entry.bytes ++ (List.replicate (4 - entries.length) [0xFF, 0xFF, 0x00]).flatten

/-- The account record of an OPEN account. -/
def OpenAccount.bytes (ref : AccountRef) (o : OpenAccount) : List Byte :=
  byte1 1 ++ refBytes ref ++ byte1 o.tariffClass ++ byte2 o.snapshot.rate ++ byte1 o.snapshot.unit
    ++ byte1 o.snapshot.grace ++ byte3 o.snapshot.dayCap ++ byte2 o.snapshot.lossCharge
    ++ byte1 o.snapshot.issueLimit ++ byte2 o.snapshot.deposit ++ byte4 o.running ++ byte1 o.entries.length
    ++ entryBytes o.entries ++ byte4 o.served ++ byte4 o.losses ++ byteFlag o.saturated ++ stampBytes o.opened
    ++ byte1 (rackCode o.openedAt) ++ byte2 o.digest.toNat

/-- The settlement record. -/
def Settlement.bytes (v : Settlement) : List Byte :=
  refBytes v.account ++ byte1 v.tariffClass ++ byte2 v.deposit ++ byte4 v.total ++ byte4 v.due ++ byte4 v.refund
    ++ byte4 v.served ++ byte4 v.losses ++ byteFlag v.saturated ++ byte1 (rackCode v.rack) ++ stampBytes v.closed

/-- The TARIFF_WRITE fields from the rate on. -/
def Tariff.bytes (v : Tariff) : List Byte :=
  byte2 v.rate ++ byte1 v.unit ++ byte1 v.grace ++ byte3 v.dayCap ++ byte2 v.deposit ++ byte2 v.lossCharge
    ++ byte1 v.issueLimit

/-- The FILTER_WRITE fields. -/
def Filter.bytes (k : Nat) (v : Filter) : List Byte :=
  byte1 k ++ byteFlag v.enabled ++ byte1 v.offset ++ byte4 v.mask.toNat ++ byte2 v.compare.toNat ++ [v.lastByte]
    ++ byteFlag v.chain ++ byte1 v.tariffClass

/-- The slot record. An absent ident reads serial none, battery 0, mark 0 and preset channel none. -/
def Slot.bytes (r : Rack) (n : Nat) (v : Slot) : List Byte :=
  byte1 (rackCode r) ++ byte1 n ++ byte1 v.state.code ++ byteFlag v.ident.isSome
    ++ byte3 ((v.ident.map (·.serial)).getD 0) ++ byte1 ((v.ident.map (·.battery)).getD 0)
    ++ byte1 ((v.ident.map fun i => markCode i.mark).getD 0) ++ byteIndex (v.ident.map (·.preset))
    ++ stampBytes (v.returned.getD ⟨0, 0⟩) ++ refBytesOpt (v.issue.map (·.account))
    ++ byteIndex (v.issue.map (·.language)) ++ byteFlag v.retry ++ byteFlag v.miss

/-- One class's report counters in their order. -/
def ClassReport.bytes (v : ClassReport) : List Byte :=
  byte4 v.settled ++ byte4 v.charged ++ byte4 v.due ++ byte4 v.refunded

-- Arguments

/-- A flags byte of a conditional command: bit 0 is the conditional flag, any other bit set is refused (R207). -/
def conditionOf (flags : Byte) : Option Bool := flagOf flags

/-- The port's reservation allows the command: the flag is clear, or the reservation names that record (R195). -/
def State.conditionMet (s : State) (conditional : Bool) (p : Port) (r : Reservation) : Bool :=
  !conditional || s.reserved p r

/-- An accepted conditional command uses up its port's reservation (R196). -/
def State.consume (s : State) (conditional : Bool) (p : Port) : State :=
  if conditional then s.dropReservation p else s

/-- A code character is a capital letter A to Z (R1, R2). -/
def capital (b : Byte) : Bool := 0x41 ≤ b.toNat && b.toNat ≤ 0x5A

/-- A label character lies in 20H to 7EH (R1, R2). -/
def printable (b : Byte) : Bool := 0x20 ≤ b.toNat && b.toNat ≤ 0x7E

/-- The label a 12-byte field carries: the characters before the 00H padding; none if a character is out of range or
follows a 00H (R207). -/
def labelOf (field : List Byte) : Option (List Byte) :=
  let text := field.takeWhile (· ≠ 0x00)
  if text.all printable && (field.drop text.length).all (· = 0x00) then some text else none

/-- A rack byte (R207). -/
def rackOf (b : Byte) : Option Rack := if b = 0x00 then some .a else if b = 0x01 then some .b else none

/-- A mode byte (section 12.2). -/
def modeOf (b : Byte) : Option Mode :=
  if b = 0x00 then some .direct else if b = 0x01 then some .announced else none

/-- An output byte of BOOTH_CONFIG: 0FFH for none, otherwise a language index 0 to 31 (R29, R207). -/
def outputOf (b : Byte) : Option (Option Nat) :=
  if b = 0xFF then some none else if b.toNat ≤ 31 then some (some b.toNat) else none

/-- The accepted relay set of BOOTH_CONFIG: `count` members 0 to 31, all different, then 0FFH (R29, R208). -/
def acceptedOf (count : Byte) (members : List Byte) : Option (List Nat) :=
  let named := members.take count.toNat
  if count.toNat ≤ 4 && named.all (fun b => b.toNat ≤ 31) && decide named.Nodup
      && (members.drop count.toNat).all (· = 0xFF) then some (setOf (named.map (·.toNat)))
  else none

/-- A channel byte names a fitted channel: not 0, not above 24, not above the channels fitted (R13). -/
def State.channelOk (s : State) (c : Byte) : Bool :=
  1 ≤ c.toNat && c.toNat ≤ 24 && c.toNat ≤ s.profile.channels

/-- A booth byte names a fitted booth: not 0, not above 16, not above the booths fitted (R29, R59). -/
def State.boothOk (s : State) (b : Byte) : Bool :=
  1 ≤ b.toNat && b.toNat ≤ 16 && b.toNat ≤ s.profile.booths

/-- A serial lies within 1 to 16,777,214 (R104). -/
def serialOk (serial : Nat) : Bool := 1 ≤ serial && serial ≤ Config.topSerial

/-- The enrolled record that holds a serial, with its index (R104). -/
def findSerial (serial : Nat) : Tab (Option Receiver) → Option (Nat × Receiver)
  | [] => none
  | (i, some v) :: rest => if v.serial = serial then some (i, v) else findSerial serial rest
  | (_, none) :: rest => findSerial serial rest

/-- The enrolled record that holds a serial, with its index (R104). -/
def State.bySerial (s : State) (serial : Nat) : Option (Nat × Receiver) := findSerial serial s.receivers

/-- The OPEN account a reference names (R129). -/
def State.openAccount (s : State) (r : AccountRef) : Option OpenAccount :=
  if (s.account r.index).generation = r.generation then (s.account r.index).account else none

-- Replies

/-- A reply that carries no more than its result code (R179). -/
def Reply.bare (r : Result) : Reply := ⟨r, []⟩

/-- A command refused with a result code: it changes nothing (R177). -/
def refuse (s : State) (r : Result) : State × Reply := (s, .bare r)

end Sys2Proof.Machine
end

