-- ==== Sys2Proof/Machine/Flags.lean ====
section
/-!
DEFINITION. The derived flags of the 2416: a booth's on-air seat and selected output language, the lamps of a console,
the latched status flags of the ports, and the flags byte of STATUS.
-/
namespace Sys2Proof.Machine

-- Booths

/-- The seat is on air: LIVE or MUTED (R27). -/
def Seat.onAir (n : Seat) : Bool := n.state = .live || n.state = .muted

/-- The on-air seat of a booth (R27). -/
def Booth.onAirSeat (b : Booth) : Option Nat := [1, 2, 3].find? fun n => (b.seat n).onAir

/-- The language of an output of the booth (R25). -/
def Booth.outputLanguage (b : Booth) : Output → Option Nat
  | .a => b.config.outputA
  | .b => b.config.outputB

/-- The selected output language of a booth (R26). -/
def Booth.language (b : Booth) : Option Nat := b.outputLanguage b.selected

/-- The booth is PRESENT (R88). -/
def Booth.present (b : Booth) : Bool := b.link.state = .present

-- Lamps (R40, R51, R84, R99)

/-- A lamp that is lit or off. -/
def lampIf (lit : Bool) : LampLevel := if lit then .lit else .off

/-- A flash lamp: flashing while its timer runs (R41, R99). -/
def lampFlash (seconds : Nat) : LampLevel := if seconds = 0 then .off else .flashing

/-- The REQUEST lamp of seat `n`: lit for the on-air seat and the requester while a request is pending (R51). -/
def Booth.requestLamp (b : Booth) (n : Nat) : Bool :=
  match b.handover with
  | none => false
  | some r => n = r.requester || b.onAirSeat = some n

/-- No seat of the booth is LIVE (R84). -/
def Booth.noLiveSeat (b : Booth) : Bool := [1, 2, 3].all fun n => (b.seat n).state ≠ .live

/-- Every lamp is off (R40). -/
def LampSet.dark : LampSet where
  mic := [.off, .off, .off]
  mute := [.off, .off, .off]
  turn := [.off, .off, .off]
  request := [.off, .off, .off]
  outputA := .off
  outputB := .off
  occupied := .off
  noLanguage := .off
  refusal := .off
  floor := .off
  relayKeys := List.replicate 16 .off
  sourceSilent := .off

/-- The lamp set of a PRESENT booth `b`'s console as the booth's record and its source's seats stand (R40, R84, R99). The
lamps of an ABSENT seat are off. -/
def State.lampsPresent (s : State) (b : Nat) : LampSet :=
  let v := s.booth b
  let perSeat (lit : Nat → Bool) : List LampLevel :=
    [1, 2, 3].map fun n => lampIf (lit n && (v.seat n).state ≠ .absent)
  { mic := perSeat fun n => (v.seat n).onAir
    mute := perSeat fun n => (v.seat n).state = .muted
    turn := perSeat fun n => (v.seat n).overdue
    request := perSeat fun n => v.requestLamp n
    outputA := lampIf (v.selected = .a)
    outputB := lampIf (v.selected = .b)
    occupied := lampFlash v.flash.occupied
    noLanguage := lampFlash v.flash.noLanguage
    refusal := lampFlash v.flash.refusal
    floor := lampIf (v.input = .floor)
    relayKeys := (List.range' 1 16).map fun x => lampIf (v.input = .relay x)
    sourceSilent :=
      match v.input with
      | .floor => .off
      | .relay x => lampIf (s.booth x).noLiveSeat }

/-- The lamp set of booth `b`'s console: every lamp is off while the booth is not PRESENT (R40, R46, R47, R84). -/
def State.lamps (s : State) (b : Nat) : LampSet := if (s.booth b).present then s.lampsPresent b else .dark

/-- The flash timers with one lamp's timer written. -/
def Flash.set (f : Flash) (lamp : FlashLamp) (seconds : Nat) : Flash :=
  match lamp with
  | .occupied => { f with occupied := seconds }
  | .noLanguage => { f with noLanguage := seconds }
  | .refusal => { f with refusal := seconds }

/-- A lamp's flash timer (R41). -/
def Flash.get (f : Flash) : FlashLamp → Nat
  | .occupied => f.occupied
  | .noLanguage => f.noLanguage
  | .refusal => f.refusal

/-- A refusal flashes a lamp of booth `b`'s console: its timer is set to 2 s (R41). -/
def State.flashLamp (s : State) (b : Nat) (lamp : FlashLamp) : State :=
  s.setBooth b { s.booth b with flash := (s.booth b).flash.set lamp Config.flashSeconds }

-- Latched flags of the ports (R100, R101)

/-- The presence latch of a booth at a port. -/
def PortState.presenceOf (q : PortState) (b : Nat) : Bool := tabGet false q.presence b

/-- The fault latch of a booth at a port. -/
def PortState.faultOf (q : PortState) (b : Nat) : Bool := tabGet false q.faults b

/-- Both latches of a booth at a port, written. -/
def PortState.setLatches (q : PortState) (b : Nat) (presence fault : Bool) : PortState :=
  { q with
    presence := tabSet false q.presence b presence
    faults := tabSet false q.faults b fault }

/-- Every port's presence latch of the booth is cleared (R97, R100). -/
def State.clearPresence (s : State) (b : Nat) : State :=
  { s with
    opsPort := { s.opsPort with presence := tabSet false s.opsPort.presence b false }
    deskAPort := { s.deskAPort with presence := tabSet false s.deskAPort.presence b false }
    deskBPort := { s.deskBPort with presence := tabSet false s.deskBPort.presence b false } }

/-- Every port's fault latch of the booth is set (R101). -/
def State.setFault (s : State) (b : Nat) : State :=
  { s with
    opsPort := { s.opsPort with faults := tabSet false s.opsPort.faults b true }
    deskAPort := { s.deskAPort with faults := tabSet false s.deskAPort.faults b true }
    deskBPort := { s.deskBPort with faults := tabSet false s.deskBPort.faults b true } }

/-- After a port's read of a booth its latches take the values of the moment (R100, R101). -/
def State.takeLatches (s : State) (p : Port) (b : Nat) : State :=
  s.setPort p ((s.port p).setLatches b (s.booth b).present (decide ((s.booth b).link.state = .faultWait)))

-- STATUS (R182, R204)

/-- The clock-suspect flag as STATUS reports it: in INSTALL it is reported as set (R204). -/
def State.suspectReported (s : State) : Bool := decide (s.run = .install) || s.suspect

/-- The start kind as STATUS reports it: in INSTALL the kind a hall start would take (R204). -/
def State.startKindReported (s : State) : StartKind :=
  if s.run = .install then (if s.marker then .warm else .cold) else s.startKind

/-- The flags byte of STATUS (section 12.4). -/
def State.statusFlags (s : State) (p : Port) : Nat :=
  let q := s.port p
  (if s.clamped then 1 else 0) + (if s.suspectReported then 2 else 0) + (if q.frameError then 4 else 0)
    + (if q.overflow then 8 else 0)
    + (match ownRack p with
       | none => 0
       | some r => (if s.rackFitted r then 16 else 0) + (if (s.buffer r).isSome then 32 else 0))

/-- The kind and selector of a reservation as STATUS reports them: the READ kind code and the selector of R209. -/
def reservationBytes : Option Reservation → List Byte
  | none => [0x00, 0xFF, 0xFF, 0xFF, 0xFF]
  | some ⟨.language i, _⟩ => [0x01, 0x00, 0x00, 0x00] ++ byte1 i
  | some ⟨.channel c, _⟩ => [0x01, 0x01, 0x00, 0x00] ++ byte1 c
  | some ⟨.booth b, _⟩ => [0x01, 0x02, 0x00, 0x00] ++ byte1 b
  | some ⟨.account i, g⟩ => [0x01, 0x05] ++ byte2 i ++ byte1 g
  | some ⟨.tariff k, _⟩ => [0x01, 0x06, 0x00, 0x00] ++ byte1 k

/-- The fields of STATUS after the result code (section 12.4). -/
def State.statusFields (s : State) (p : Port) : List Byte :=
  byte1 (if s.run = .install then 1 else 0) ++ byte1 s.startKindReported.code ++ byte1 (s.statusFlags p)
    ++ byte1 (s.port p).notices.length ++ reservationBytes (s.port p).reservation

end Sys2Proof.Machine
end

