-- ==== Sys2Proof/Machine/Feed.lean ====
section
/-!
DEFINITION. The feed link engine (section 1.6): feed sources, the feed table and its transmissions.
-/
namespace Sys2Proof.Machine

/-- The feed source of a channel whose state names a language (R20). -/
def State.boundSource (s : State) (c : Channel) : FeedSource :=
  match c.state with
  | .free => .silent
  | .mapped _ => if c.floorFill then .floor else .silent
  | .live l =>
    match (s.language l).owner with
    | none => .silent
    | some b => if (s.booth b).noLiveSeat then .silent else .booth b
  | .redirect _ _ => .silent

/-- The feed source of channel `c` (R20). -/
def State.feedSource (s : State) (c : Nat) : FeedSource :=
  if c = 0 then .floor
  else
    match (s.channel c).state with
    | .redirect t _ => s.boundSource (s.channel t)
    | _ => s.boundSource (s.channel c)

/-- The code of the language a channel's state names, blank if it names none. -/
def State.channelCode (s : State) (c : Channel) : List Byte :=
  match c.state.language with
  | none => []
  | some l => (s.language l).code

/-- The feed table's entry of channel `c` (R21). -/
def State.feedEntry (s : State) (c : Nat) : FeedEntry :=
  if c = 0 then ⟨.floor, [], 0⟩
  else
    match (s.channel c).state with
    | .redirect t _ => ⟨s.feedSource c, s.channelCode (s.channel t), t⟩
    | _ => ⟨s.feedSource c, s.channelCode (s.channel c), 0⟩

/-- The feed table as the tables stand (R21). -/
def State.feedTable (s : State) : FeedTable :=
  ⟨(List.range 25).map s.feedEntry, (List.range' 1 16).map fun b => (s.booth b).input⟩

/-- A transmission starts with the table as it stands, and the send-due flag is cleared (R22). -/
def State.feedStart (s : State) : State := { s with feed := ⟨s.feedTable, false, true⟩ }

/-- The feed link engine at work (R22): the send-due flag is set when the feed table differs from the one last
transmitted, and a transmission starts when the flag is set and none is in progress. In INSTALL, and without power, the
link is silent (R204). -/
def State.feedWork (s : State) : State :=
  if s.run = .hall then
    let due := s.feed.due || decide (s.feedTable ≠ s.feed.last)
    if due && !s.feed.sending then s.feedStart else { s with feed := { s.feed with due := due } }
  else s

/-- An event of the hall: it is taken in HALL alone, since in INSTALL and without power the links, buses and timers are
still (R204), and the feed link engine follows the tables (R22). -/
def State.hallEvent (s : State) (effect : State → State) : State :=
  if s.run = .hall then (effect s).feedWork else s

/-- FEED_REPEAT: one second has passed since the start of the last transmission (R22). -/
def State.feedRepeat (s : State) : State := { s with feed := { s.feed with due := true } }

/-- FEED_TRANSMISSION_END: the transmission in progress ends (R22). -/
def State.feedEnd (s : State) : State := { s with feed := { s.feed with sending := false } }

/-- FEED_REPEAT (R22). -/
def execFeedRepeat (s : State) : Outcome := .next (s.hallEvent State.feedRepeat)

/-- FEED_TRANSMISSION_END (R22). -/
def execFeedTransmissionEnd (s : State) : Outcome := .next (s.hallEvent State.feedEnd)

end Sys2Proof.Machine
end

