-- ==== Sys2Proof/Machine/Command.lean ====
section
/-!
DEFINITION. Commands of the client ports: their CODEs, the ports they are permitted on, the lengths of their payloads,
and the checks every taken command meets before its own rule (section 9.3). A command's own rule stands in its family's
file as `do<Command>`, a function from the sending port, the payload and the state to the state after and the reply.
-/
namespace Sys2Proof.Machine

/-- The commands of the 2416 (R178). -/
inductive CommandName where
  | status
  | read
  | readReserve
  | reserveDrop
  | langDefine
  | langRemove
  | chanMap
  | chanUnmap
  | chanMove
  | chanFloorfill
  | boothConfig
  | boothInput
  | seatForceTake
  | seatForceOff
  | tariffWrite
  | filterWrite
  | clockSet
  | dayClose
  | receiverEnroll
  | receiverRetire
  | receiverService
  | reportClear
  | profileRead
  | profileWrite
  | accountOpen
  | accountFind
  | accountClose
  | issue
  | settlementTake
  | slotClear
  | rackReset
  | enrollSlot
  | accountAdjust
  | lossDeclare
  deriving DecidableEq, Repr

/-- The CODE of a command (section 12.3). -/
def CommandName.code : CommandName → Byte
  | .status => 0x01
  | .read => 0x02
  | .readReserve => 0x03
  | .reserveDrop => 0x04
  | .langDefine => 0x10
  | .langRemove => 0x11
  | .chanMap => 0x12
  | .chanUnmap => 0x13
  | .chanMove => 0x14
  | .chanFloorfill => 0x15
  | .boothConfig => 0x16
  | .boothInput => 0x17
  | .seatForceTake => 0x18
  | .seatForceOff => 0x19
  | .tariffWrite => 0x1A
  | .filterWrite => 0x1B
  | .clockSet => 0x1C
  | .dayClose => 0x1D
  | .receiverEnroll => 0x1E
  | .receiverRetire => 0x1F
  | .receiverService => 0x20
  | .reportClear => 0x21
  | .profileRead => 0x22
  | .profileWrite => 0x23
  | .accountOpen => 0x30
  | .accountFind => 0x42
  | .accountClose => 0x31
  | .issue => 0x32
  | .settlementTake => 0x33
  | .slotClear => 0x34
  | .rackReset => 0x35
  | .enrollSlot => 0x36
  | .accountAdjust => 0x40
  | .lossDeclare => 0x41

/-- The command a CODE names, none for an unknown command (R177). -/
def commandOf (code : Byte) : Option CommandName :=
  [.status, .read, .readReserve, .reserveDrop, .langDefine, .langRemove, .chanMap,
   .chanUnmap, .chanMove, .chanFloorfill, .boothConfig, .boothInput, .seatForceTake, .seatForceOff,
   .tariffWrite, .filterWrite, .clockSet, .dayClose, .receiverEnroll, .receiverRetire, .receiverService,
   .reportClear, .profileRead, .profileWrite, .accountOpen, .accountFind, .accountClose, .issue,
   .settlementTake, .slotClear, .rackReset, .enrollSlot, .accountAdjust, .lossDeclare].find? fun n => n.code = code

/-- The ports a command is permitted on (R178). -/
def CommandName.permitted : CommandName → Port → Bool
  | .status, _ | .read, _ | .readReserve, _ | .reserveDrop, _ | .accountFind, _
  | .accountAdjust, _ | .lossDeclare, _ => true
  | .langDefine, p | .langRemove, p | .chanMap, p | .chanUnmap, p | .chanMove, p
  | .chanFloorfill, p | .boothConfig, p | .boothInput, p | .seatForceTake, p | .seatForceOff, p
  | .tariffWrite, p | .filterWrite, p | .clockSet, p | .dayClose, p | .receiverEnroll, p
  | .receiverRetire, p | .receiverService, p | .reportClear, p | .profileRead, p | .profileWrite, p => p = .ops
  | .accountOpen, p | .accountClose, p | .issue, p | .settlementTake, p | .slotClear, p
  | .rackReset, p | .enrollSlot, p => p ≠ .ops

/-- The payload has the length Chapter 12 gives for the command; a credential has 16 to 64 bytes (R177). -/
def CommandName.lengthOk : CommandName → Nat → Bool
  | .status, n | .reserveDrop, n | .dayClose, n | .profileRead, n | .settlementTake, n
  | .rackReset, n => n = 0
  | .read, n | .readReserve, n | .receiverService, n | .accountClose, n => n = 4
  | .langDefine, n => n = 17
  | .langRemove, n | .seatForceOff, n | .reportClear, n | .slotClear, n | .enrollSlot, n => n = 1
  | .chanMap, n | .chanFloorfill, n | .boothInput, n | .seatForceTake, n => n = 2
  | .chanUnmap, n | .chanMove, n | .clockSet, n | .receiverEnroll, n | .receiverRetire, n
  | .lossDeclare, n => n = 3
  | .boothConfig, n => n = 11
  | .tariffWrite, n => n = 14
  | .filterWrite, n => n = 12
  | .profileWrite, n => n = 15
  | .accountOpen, n | .accountFind, n => 16 ≤ n && n ≤ 64
  | .issue, n => n = 5
  | .accountAdjust, n => n = 8

/-- The commands the operations port is answered for in INSTALL (R177, R204). -/
def CommandName.inInstall : CommandName → Port → Bool
  | .profileRead, p | .profileWrite, p | .status, p => p = .ops
  | _, _ => false

/-- The checks of R177 that come before a command's own rule: INSTALL, permission, payload length. -/
def State.answer (s : State) (name : CommandName) (p : Port) (payload : List Byte)
    (own : State → State × Reply) : State × Reply :=
  if s.run = .install && !name.inInstall p then refuse s .denied
  else if !name.permitted p then refuse s .denied
  else if !name.lengthOk payload.length then refuse s .badArg
  else own s

/-- A command whose CODE names no command: DENIED in INSTALL, BAD_ARG otherwise (R177). -/
def State.answerUnknown (s : State) : State × Reply :=
  if s.run = .install then refuse s .denied else refuse s .badArg

/-- The command is in hand with its reply, which waits or is chosen at once by the transmitter (R176, R185). -/
def PortState.hand (q : PortState) (tag code : Byte) (reply : Reply) : PortState :=
  { q with inHand := some ⟨tag, code, reply, q.notices.length, false⟩ }.chooseFrame

/-- A command is taken: it is carried out and its reply formed in one step, and the feed link engine follows (R176). -/
def State.take (s : State) (p : Port) (tag code : Byte) (own : State → State × Reply) : State :=
  let r := own s
  (r.1.setPort p ((r.1.port p).hand tag code r.2)).feedWork

/-- The bytes a port's receive buffer holds: the received commands and the stored bytes of the frame being collected
(R175). -/
def PortState.buffered (q : PortState) : Nat :=
  (q.received.map List.length).sum +
    match q.framer with
    | .collecting _ stored _ => stored.length
    | .hunting | .expectLen _ => 0

/-- A whole frame comes while a command is in hand: it waits in the receive buffer if it fits there; otherwise bytes of
it are dropped, it fails its check and is discarded with the frame-error flag set (R174, R175, R176). -/
def PortState.keep (q : PortState) (code tag : Byte) (payload : List Byte) : PortState :=
  let stored := (frameBytes 0x01 tag code payload).tail
  if q.buffered + stored.length ≤ Config.bufferBytes then { q with received := q.received ++ [stored] }
  else { q with frameError := true }

/-- A client command reaches a port engine as a whole, checked frame (R174, R176): with no command in hand it is taken
at once; otherwise it is kept as a received command. Without power nothing is received. -/
def State.command (s : State) (p : Port) (tag code : Byte) (payload : List Byte)
    (own : State → State × Reply) : State :=
  if s.run = .off then s
  else if (s.port p).inHand.isNone then s.take p tag code own
  else s.setPort p ((s.port p).keep code tag payload)

end Sys2Proof.Machine
end

