-- ==== Sys2Proof/Machine/Languages.lean ====
section
/-!
DEFINITION. Chapter 1: the language table, ownership, and the channel commands.
-/
namespace Sys2Proof.Machine

-- Ownership (section 1.2)

/-- CHANNEL_CHANGED for a channel, with its contents as they stand (R12). -/
def State.channelChanged (s : State) (c : Nat) : State := s.notifyOps (.channelChanged c (s.channel c))

/-- A channel record's state written. -/
def State.setChannelState (s : State) (c : Nat) (v : ChannelState) : State :=
  s.setChannel c { s.channel c with state := v }

/-- The state of a channel bound to language `l`: LIVE when the language has an owner, MAPPED when not (R11). -/
def boundState (l : Nat) (owner : Option Nat) : ChannelState :=
  if owner.isSome then .live l else .mapped l

/-- The channel of language `l`, if it has one, moves between MAPPED and LIVE with the language's owner, and
CHANNEL_CHANGED is sent if it moves (R11, R12). -/
def State.followOwner (s : State) (l : Nat) : State :=
  match (s.language l).channel with
  | none => s
  | some c =>
    let v := boundState l (s.language l).owner
    if (s.channel c).state = v then s else (s.setChannelState c v).channelChanged c

/-- The owner field of language `l` is written. A change sends OWNER_CHANGED and moves the language's channel
(R9, R11). -/
def State.setOwner (s : State) (l : Nat) (owner : Option Nat) : State :=
  let former := (s.language l).owner
  if former = owner then s
  else
    ((s.setLanguage l { s.language l with owner := owner }).notifyOps (.ownerChanged l former owner)).followOwner l

/-- An acquisition by booth `b` of language `l`: none when it is refused with OCCUPIED (R6). -/
def State.acquire (s : State) (b l : Nat) : Option State :=
  match (s.language l).owner with
  | none => some (s.setOwner l (some b))
  | some o => if o = b then some s else none

/-- A release by booth `b` of the language it owns (R8). -/
def State.release (s : State) (b : Nat) (l : Option Nat) : State :=
  match l with
  | none => s
  | some l => if (s.language l).owner = some b then s.setOwner l none else s

/-- A switch by booth `b` from the language it owns to language `y`, decided on the owner field of `y` (R7): none when
it is refused with OCCUPIED. The release and its notices come first (R9). -/
def State.switchTo (s : State) (b : Nat) (x : Option Nat) (y : Nat) : Option State :=
  if x = some y then some s
  else
    match (s.language y).owner with
    | none => some ((s.release b x).setOwner y (some b))
    | some o => if o = b then some (s.release b x) else none

-- Language commands (section 1.1)

/-- A defined record at another index has the code (R2). -/
def State.codeTaken (s : State) (i : Nat) (code : List Byte) : Bool :=
  (List.range 32).any fun j => j ≠ i && (s.language j).defined && (s.language j).code = code

/-- LANG_DEFINE(index, code, label) (R2). -/
def doLangDefine (p : Port) (payload : List Byte) (s : State) : State × Reply :=
  match payload with
  | flags :: index :: c0 :: c1 :: c2 :: label =>
    let code := [c0, c1, c2]
    let i := index.toNat
    match conditionOf flags, labelOf label with
    | some cond, some text =>
      if 31 < i || !code.all capital then refuse s .badArg
      else if !s.conditionMet cond p ⟨.language i, 0⟩ then refuse s .reservationLost
      else if s.codeTaken i code then refuse s .exists
      else if !(s.language i).defined then
        ((s.setLanguage i ⟨true, code, text, none, none, 0⟩).consume cond p, .bare .ok)
      else if (s.language i).code ≠ code then refuse s .wrongState
      else ((s.setLanguage i { s.language i with label := text }).consume cond p, .bare .ok)
    | _, _ => refuse s .badArg
  | _ => refuse s .badArg

/-- LANG_DEFINE (R2). -/
def execLangDefine (p : Port) (tag : Byte) (payload : List Byte) (s : State) : Outcome :=
  .next (s.command p tag CommandName.langDefine.code payload fun s =>
    s.answer .langDefine p payload (doLangDefine p payload))

/-- A booth's configuration names the language as an output or as a member of its accepted relay set (R3). -/
def State.configured (s : State) (i : Nat) : Bool :=
  (List.range' 1 16).any fun b =>
    let v := (s.booth b).config
    v.outputA = some i || v.outputB = some i || v.accepted.contains i

/-- LANG_REMOVE(index) (R3). -/
def doLangRemove (_p : Port) (payload : List Byte) (s : State) : State × Reply :=
  match payload with
  | [index] =>
    let i := index.toNat
    let v := s.language i
    if 31 < i then refuse s .badArg
    else if !v.defined then refuse s .noRecord
    else if v.channel.isSome || v.owner.isSome || 0 < v.listeners || s.configured i then refuse s .wrongState
    else (s.setLanguage i .undefined, .bare .ok)
  | _ => refuse s .badArg

/-- LANG_REMOVE (R3). -/
def execLangRemove (p : Port) (tag : Byte) (payload : List Byte) (s : State) : Outcome :=
  .next (s.command p tag CommandName.langRemove.code payload fun s =>
    s.answer .langRemove p payload (doLangRemove p payload))

-- Channel commands (section 1.4)

/-- A language's channel field written. -/
def State.setLanguageChannel (s : State) (l : Nat) (c : Option Nat) : State :=
  s.setLanguage l { s.language l with channel := c }

/-- CHAN_MAP(c, L) (R13, R14). -/
def doChanMap (_p : Port) (payload : List Byte) (s : State) : State × Reply :=
  match payload with
  | [channel, language] =>
    let c := channel.toNat
    let l := language.toNat
    if !s.channelOk channel || 31 < l then refuse s .badArg
    else if !(s.language l).defined then refuse s .noRecord
    else if (s.channel c).state ≠ .free || (s.language l).channel.isSome then refuse s .wrongState
    else
      (((s.setChannelState c (boundState l (s.language l).owner)).setLanguageChannel l (some c)).channelChanged c,
        .bare .ok)
  | _ => refuse s .badArg

/-- CHAN_MAP (R14). -/
def execChanMap (p : Port) (tag : Byte) (payload : List Byte) (s : State) : Outcome :=
  .next (s.command p tag CommandName.chanMap.code payload fun s =>
    s.answer .chanMap p payload (doChanMap p payload))

/-- The redirect of channel `x` ends: the channel becomes FREE, CHANNEL_CHANGED and then REDIRECT_ENDED with the former
target and the cause are sent (R15, R18). -/
def State.endRedirect (s : State) (x : Nat) (cause : Cause) : State :=
  match (s.channel x).state with
  | .redirect target _ =>
    ((s.setChannelState x .free).channelChanged x).notifyOps (.redirectEnded x target cause)
  | _ => s

/-- Every REDIRECT channel whose target is `c` ends, in ascending channel number (R15). -/
def State.endRedirectsTo (s : State) (c : Nat) : State :=
  (List.range' 1 24).foldl (fun s x => if (s.channel x).state.target = c then s.endRedirect x .unmapped else s) s

/-- CHAN_UNMAP(c, force) (R13, R15). -/
def doChanUnmap (p : Port) (payload : List Byte) (s : State) : State × Reply :=
  match payload with
  | [flags, channel, forceByte] =>
    let c := channel.toNat
    match conditionOf flags, flagOf forceByte with
    | some cond, some force =>
      if !s.channelOk channel then refuse s .badArg
      else if !s.conditionMet cond p ⟨.channel c, 0⟩ then refuse s .reservationLost
      else
        match (s.channel c).state.language with
        | none => refuse s .wrongState
        | some l =>
          if !force && 0 < (s.language l).listeners then refuse s .wrongState
          else
            (((((s.setChannelState c .free).setLanguageChannel l none).channelChanged c).endRedirectsTo c).consume cond p,
              .bare .ok)
    | _, _ => refuse s .badArg
  | _ => refuse s .badArg

/-- CHAN_UNMAP (R15). -/
def execChanUnmap (p : Port) (tag : Byte) (payload : List Byte) (s : State) : Outcome :=
  .next (s.command p tag CommandName.chanUnmap.code payload fun s =>
    s.answer .chanUnmap p payload (doChanUnmap p payload))

/-- A REDIRECT channel whose target is `a` now targets `b`, keeping its remaining hold (R16). -/
def State.retarget (s : State) (a b x : Nat) : State :=
  match (s.channel x).state with
  | .redirect target hold => if target = a then (s.setChannelState x (.redirect b hold)).channelChanged x else s
  | _ => s

/-- CHAN_MOVE(a, b) (R13, R16). -/
def doChanMove (p : Port) (payload : List Byte) (s : State) : State × Reply :=
  match payload with
  | [flags, aByte, bByte] =>
    let a := aByte.toNat
    let b := bByte.toNat
    match conditionOf flags with
    | none => refuse s .badArg
    | some cond =>
      if !s.channelOk aByte || !s.channelOk bByte || a = b then refuse s .badArg
      else if !s.conditionMet cond p ⟨.channel a, 0⟩ then refuse s .reservationLost
      else
        match (s.channel a).state.language with
        | none => refuse s .wrongState
        | some l =>
          if (s.channel b).state ≠ .free then refuse s .wrongState
          else
            let moved :=
              (((s.setChannelState b (boundState l (s.language l).owner)).setLanguageChannel l (some b)).setChannelState a
                (.redirect b s.profile.redirectHold))
            let told := (moved.channelChanged b).channelChanged a
            (((List.range' 1 24).foldl (fun s x => s.retarget a b x) told).consume cond p, .bare .ok)
  | _ => refuse s .badArg

/-- CHAN_MOVE (R16). -/
def execChanMove (p : Port) (tag : Byte) (payload : List Byte) (s : State) : Outcome :=
  .next (s.command p tag CommandName.chanMove.code payload fun s =>
    s.answer .chanMove p payload (doChanMove p payload))

/-- CHAN_FLOORFILL(c, on/off) (R13, R17). -/
def doChanFloorfill (_p : Port) (payload : List Byte) (s : State) : State × Reply :=
  match payload with
  | [channel, onByte] =>
    let c := channel.toNat
    match flagOf onByte with
    | none => refuse s .badArg
    | some on =>
      if !s.channelOk channel then refuse s .badArg
      else if (s.channel c).floorFill = on then (s, .bare .ok)
      else ((s.setChannel c { s.channel c with floorFill := on }).channelChanged c, .bare .ok)
  | _ => refuse s .badArg

/-- CHAN_FLOORFILL (R17). -/
def execChanFloorfill (p : Port) (tag : Byte) (payload : List Byte) (s : State) : Outcome :=
  .next (s.command p tag CommandName.chanFloorfill.code payload fun s =>
    s.answer .chanFloorfill p payload (doChanFloorfill p payload))

/-- REDIRECT_EXPIRY(c): the remaining hold of a REDIRECT channel has reached 0, and the channel becomes FREE (R18). A
channel in another state is not touched (R19). -/
def execRedirectExpiry (c : Nat) (s : State) : Outcome := .next (s.hallEvent fun s => s.endRedirect c .expired)

/-- A second event at channel `c`: the remaining hold of a REDIRECT channel decreases by 1, and the redirect expires
when it reaches 0 (R18). -/
def State.countHold (s : State) (c : Nat) : State :=
  match (s.channel c).state with
  | .redirect target hold =>
    if hold ≤ 1 then s.endRedirect c .expired else s.setChannelState c (.redirect target (hold - 1))
  | _ => s

/-- A minute tick at channel `c`: a LIVE channel counts a live-minute, saturating (R23). -/
def State.countChannelMinute (s : State) (c : Nat) : State :=
  match (s.channel c).state with
  | .live _ => s.setChannel c { s.channel c with liveMinutes := satAdd Config.top32 (s.channel c).liveMinutes 1 }
  | _ => s

end Sys2Proof.Machine
end

