-- ==== Sys2Proof/Machine/Relay.lean ====
section
/-!
DEFINITION. Chapter 4: inputs, taker sets, the selection of an input, the input history stack, follow or drop.
-/
namespace Sys2Proof.Machine

-- Depth, height and tree (R65, R67), computed with fuel for the 16 booths

/-- The relay depth of booth `b` (R65). -/
def State.depth (s : State) : Nat → Nat → Nat
  | 0, _ => 0
  | fuel + 1, b =>
    match (s.booth b).input with
    | .floor => 0
    | .relay a => s.depth fuel a + 1

/-- The height of booth `b` (R67). -/
def State.height (s : State) : Nat → Nat → Nat
  | 0, _ => 0
  | fuel + 1, b => ((s.booth b).takers.map fun c => s.height fuel c + 1).foldl max 0

/-- Booth `y` lies in the transitive taker tree of booth `x` (R67). -/
def State.inTree (s : State) : Nat → Nat → Nat → Bool
  | 0, _, _ => false
  | fuel + 1, x, y => (s.booth x).takers.any fun c => c = y || s.inTree fuel c y

/-- The longest chain of relays a hall of 16 booths can hold. -/
def chainFuel : Nat := 16

-- The input history stack (section 4.3)

/-- A push: entries 1 to 3 shift down and the input becomes entry 1 (R75). -/
def InputStack.push (k : InputStack) (i : Input) : InputStack := ⟨i, k.e1, k.e2, k.e3⟩

/-- A pop: entries 2 to 4 shift up and entry 4 stays (R76). The popped entry is entry 1. -/
def InputStack.pop (k : InputStack) : InputStack := ⟨k.e2, k.e3, k.e4, k.e4⟩

-- Selecting an input (section 4.2)

/-- Booth `x` is taken out of the taker set of its present source, if it has one. -/
def State.leaveSource (s : State) (x : Nat) : State :=
  match (s.booth x).input with
  | .floor => s
  | .relay a => s.setBooth a { s.booth a with takers := setDel x (s.booth a).takers }

/-- Booth `x`'s input written, the input left behind being pushed unless the selection is made by PREVIOUS (R75). -/
def State.writeInput (s : State) (x : Nat) (i : Input) (push : Bool) : State :=
  let v := s.booth x
  s.setBooth x { v with input := i, stack := if push then v.stack.push v.input else v.stack }

/-- The selection of RELAY(b) by booth `x`, carried out (R70). -/
def State.joinSource (s : State) (x b : Nat) (push : Bool) : State :=
  let t := (s.leaveSource x).writeInput x (.relay b) push
  t.setBooth b { t.booth b with takers := setAdd x (t.booth b).takers }

/-- The first check of R69 that a selection of RELAY(b) by booth `x` fails. -/
def State.relayCheck (s : State) (x b : Nat) : Option Cause :=
  if b = x then some .self
  else if !(s.booth b).present then some .notPresent
  else if s.inTree chainFuel x b then some .loop
  else if s.profile.relayDepth < s.depth chainFuel b + 1 + s.height chainFuel x then some .tooDeep
  else
    match (s.booth b).language with
    | none => some .notUnderstood
    | some l => if (s.booth x).config.accepted.contains l then none else some .notUnderstood

/-- What becomes of a selection (R69, R71, R74). -/
inductive Selection where
  | unchanged
  | selected (s : State)
  | refused (cause : Cause)

/-- A selection of an input by booth `x` (R69 to R71); FLOOR is never refused. -/
def State.select (s : State) (x : Nat) (i : Input) (push : Bool) : Selection :=
  if (s.booth x).input = i then .unchanged
  else
    match i with
    | .floor => .selected ((s.leaveSource x).writeInput x .floor push)
    | .relay b =>
      match s.relayCheck x b with
      | some cause => .refused cause
      | none => .selected (s.joinSource x b push)

/-- A selection by a console key: a refusal flashes the REFUSAL lamp, a selection of the input held flashes nothing
(R73). -/
def State.selectByKey (s : State) (x : Nat) (i : Input) (push : Bool) : State :=
  match s.select x i push with
  | .unchanged => s
  | .selected t => t
  | .refused _ => s.flashLamp x .refusal

/-- The relay map takes input keys from a PRESENT booth whose granted abilities include relay keys (R68). -/
def Booth.relayKeys (v : Booth) : Bool :=
  v.present && (match v.granted with | none => false | some g => g.relay)

/-- FLOOR_SEL of booth `x` (R68, R71). -/
def State.floorKey (s : State) (x : Nat) : State :=
  if (s.booth x).relayKeys then s.selectByKey x .floor true else s

/-- RELAY_SEL(b) of booth `x`; a booth number of 0 or above 16 is ignored (R68, R69, R70). -/
def State.relayKey (s : State) (x b : Nat) : State :=
  if (s.booth x).relayKeys && (1 ≤ b && b ≤ 16) then s.selectByKey x (.relay b) true else s

/-- PREVIOUS of booth `x`: the stack is popped, and the popped entry is selected without a push (R68, R76). -/
def State.previousKey (s : State) (x : Nat) : State :=
  let v := s.booth x
  if v.relayKeys then (s.setBooth x { v with stack := v.stack.pop }).selectByKey x v.stack.e1 false else s

/-- BOOTH_INPUT(booth, input) (R74). -/
def doBoothInput (_p : Port) (payload : List Byte) (s : State) : State × Reply :=
  match payload with
  | [booth, inputByte] =>
    let x := booth.toNat
    let before := (s.booth x).input.code
    if !s.boothOk booth || 16 < inputByte.toNat then refuse s .badArg
    else if !(s.booth x).present then (s, ⟨.wrongState, byte1 Cause.takerAbsent.code ++ byte1 before⟩)
    else
      match s.select x (if inputByte = 0x00 then .floor else .relay inputByte.toNat) true with
      | .unchanged => (s, ⟨.ok, byte1 SeatOutcome.unchanged.code ++ byte1 before⟩)
      | .selected t => (t, ⟨.ok, byte1 SeatOutcome.selected.code ++ byte1 before⟩)
      | .refused cause => (s, ⟨.wrongState, byte1 cause.code ++ byte1 before⟩)
  | _ => refuse s .badArg

/-- BOOTH_INPUT (R74). -/
def execBoothInput (p : Port) (tag : Byte) (payload : List Byte) (s : State) : Outcome :=
  .next (s.command p tag CommandName.boothInput.code payload fun s =>
    s.answer .boothInput p payload (doBoothInput p payload))

/-- FLOOR_SEL (R71). -/
def execFloorSel (x : Nat) (s : State) : Outcome := .next (s.hallEvent fun s => s.floorKey x)

/-- RELAY_SEL (R70). -/
def execRelaySel (x b : Nat) (s : State) : Outcome := .next (s.hallEvent fun s => s.relayKey x b)

/-- PREVIOUS (R76). -/
def execPrevious (x : Nat) (s : State) : Outcome := .next (s.hallEvent fun s => s.previousKey x)

-- Follow or drop (section 4.5)

/-- A drop of taker `c` from source `b` (R78). -/
def State.dropTaker (s : State) (b : Nat) (cause : Cause) (c : Nat) : State :=
  let v := s.booth c
  let t := s.setBooth c { v with input := .floor, stack := v.stack.push (.relay b) }
  (t.setBooth b { t.booth b with takers := setDel c (t.booth b).takers }).notifyOps (.relayDropped c b cause)

/-- A taker of booth `b` follows `b`'s new language if it accepts it, and is dropped if not (R79). -/
def State.followOrDropOne (s : State) (b : Nat) (language : Option Nat) (c : Nat) : State :=
  match language with
  | none => s.dropTaker b .notUnderstood c
  | some l =>
    if (s.booth c).config.accepted.contains l then s.notifyOps (.relayFollowed c b l)
    else s.dropTaker b .notUnderstood c

/-- Follow or drop for every taker of booth `b` against its new language, in ascending booth number (R79, R80). -/
def State.followOrDrop (s : State) (b : Nat) (language : Option Nat) : State :=
  (s.booth b).takers.foldl (fun s c => s.followOrDropOne b language c) s

/-- The relay map's part of the loss of booth `b` (R82). -/
def State.relayLoss (s : State) (b : Nat) : State :=
  let dropped := (s.booth b).takers.foldl (fun s c => s.dropTaker b .sourceLost c) s
  let t := dropped.leaveSource b
  t.setBooth b { t.booth b with input := .floor, stack := .initial }

end Sys2Proof.Machine
end

