-- ==== Sys2Proof/Machine/Booths.lean ====
section
/-!
DEFINITION. Chapters 2 and 3: the booth configuration, the microphone, mute and output keys, the handover between
seats, the forced seat commands, turn timing and the flash timers.
-/
namespace Sys2Proof.Machine

-- Seats going on and off the air

/-- A seat put on air: LIVE, turn counter 0, overdue mark clear (R34, R53). -/
def Seat.on (n : Seat) : Seat := { n with state := .live, turn := 0, overdue := false }

/-- A seat taken off the air: OFF, overdue mark clear, turn counter kept (R35, R53). -/
def Seat.offAir (n : Seat) : Seat := { n with state := .off, overdue := false }

/-- Seat `n` of booth `b` goes OFF, the handover state becomes NONE and the language is released (R35, R30, R46, R61). -/
def State.goOffAir (s : State) (b n : Nat) (language : Option Nat) : State :=
  let v := s.booth b
  (s.setBooth b { v.setSeat n (v.seat n).offAir with handover := none }).release b language

/-- Going on air (R34): none when the language is owned by another booth. -/
def State.goOnAir (s : State) (b n l : Nat) : Option State :=
  match s.acquire b l with
  | none => none
  | some t => some (t.setBooth b ((t.booth b).setSeat n ((t.booth b).seat n).on))

/-- A transfer from the outgoing seat to the incoming seat (R53). -/
def State.transfer (s : State) (b outgoing incoming : Nat) : State :=
  let v := s.booth b
  let w := (v.setSeat incoming (v.seat incoming).on).setSeat outgoing (v.seat outgoing).offAir
  (s.setBooth b { w with handover := none }).notifyOps (.handoverDone b outgoing incoming (v.seat outgoing).turn)

/-- A request by seat `n`, with the full window of the profile (R48, R50). -/
def State.requestBy (s : State) (b n : Nat) : State :=
  s.setBooth b { s.booth b with handover := some ⟨n, s.profile.handoverWindow⟩ }

/-- The pending request is withdrawn (R52). -/
def State.withdraw (s : State) (b : Nat) : State := s.setBooth b { s.booth b with handover := none }

-- Microphone keys (R33, R49)

/-- A press on an OFF seat of a booth with no seat on air (R34). -/
def State.micGoOn (s : State) (b n : Nat) : State :=
  match (s.booth b).language with
  | none => s.flashLamp b .noLanguage
  | some l =>
    match s.goOnAir b n l with
    | none => s.flashLamp b .occupied
    | some t => t

/-- A press on an OFF seat `n` while seat `t` is on air (R49, R50, R52, R54). -/
def State.micOff (s : State) (b n t : Nat) : State :=
  match (s.booth b).handover with
  | some r => if r.requester = n then s.withdraw b else s.flashLamp b .refusal
  | none =>
    match (s.booth b).config.mode with
    | .direct => s.transfer b t n
    | .announced => s.requestBy b n

/-- A press on the on-air seat `n` (R35, R55). -/
def State.micOn (s : State) (b n : Nat) : State :=
  match (s.booth b).handover with
  | some r => s.transfer b n r.requester
  | none => s.goOffAir b n (s.booth b).language

/-- A seat number a key event may name (R96). -/
def seatOk (n : Nat) : Bool := 1 ≤ n && n ≤ 3

/-- MIC(n) of booth `b` (R33). A key event of a booth that is not PRESENT is not delivered (R33), nor one that names a
seat outside 1 to 3 (R96). -/
def State.micKey (s : State) (b n : Nat) : State :=
  if (s.booth b).present && seatOk n then
    match ((s.booth b).seat n).state with
    | .absent => s
    | .off =>
      match (s.booth b).onAirSeat with
      | none => s.micGoOn b n
      | some t => s.micOff b n t
    | .live | .muted => s.micOn b n
  else s

/-- MIC (R33). -/
def execMic (b n : Nat) (s : State) : Outcome := .next (s.hallEvent fun s => s.micKey b n)

-- Mute keys (R36)

/-- The booth's granted abilities include mute keys. -/
def Booth.muteKeys (v : Booth) : Bool :=
  v.present && (match v.granted with | none => false | some g => g.mute)

/-- A mute event: seat `n` moves from one on-air state to the other; any other state ignores it (R36). -/
def State.muteKey (s : State) (b n : Nat) (before after : SeatState) : State :=
  let v := s.booth b
  if v.muteKeys && seatOk n && (v.seat n).state = before then
    s.setBooth b (v.setSeat n { v.seat n with state := after })
  else s

/-- MUTE_DOWN (R36). -/
def execMuteDown (b n : Nat) (s : State) : Outcome := .next (s.hallEvent fun s => s.muteKey b n .live .muted)

/-- MUTE_UP (R36). -/
def execMuteUp (b n : Nat) (s : State) : Outcome := .next (s.hallEvent fun s => s.muteKey b n .muted .live)

-- Output keys (R37 to R39)

/-- The selection changes, and a change of the selected output language is handed to the relay map (R38, R39). -/
def State.changeOutput (s : State) (b : Nat) (o : Output) (former : Option Nat) : State :=
  let t := s.setBooth b { s.booth b with selected := o }
  if (t.booth b).language = former then t else t.followOrDrop b (t.booth b).language

/-- An output key that has passed the checks of R37 (R38). -/
def State.takeOutput (s : State) (b : Nat) (o : Output) : State :=
  let v := s.booth b
  match v.onAirSeat, v.outputLanguage o with
  | some _, some y =>
    match s.switchTo b v.language y with
    | none => s.flashLamp b .occupied
    | some t => t.changeOutput b o v.language
  | _, _ => s.changeOutput b o v.language

/-- OUTPUT_A of booth `b` (R37): refused with NO LANGUAGE when output A has no language and a seat is on air. -/
def State.outputAKey (s : State) (b : Nat) : State :=
  let v := s.booth b
  if !v.present || v.selected = .a then s
  else if v.config.outputA.isNone && v.onAirSeat.isSome then s.flashLamp b .noLanguage
  else s.takeOutput b .a

/-- OUTPUT_B of booth `b` (R37): refused with REFUSAL without the output-B key, with NO LANGUAGE without a language. -/
def State.outputBKey (s : State) (b : Nat) : State :=
  let v := s.booth b
  if !v.present || v.selected = .b then s
  else if !(match v.granted with | none => false | some g => g.outputB) then s.flashLamp b .refusal
  else if v.config.outputB.isNone then s.flashLamp b .noLanguage
  else s.takeOutput b .b

/-- OUTPUT_A (R38). -/
def execOutputA (b : Nat) (s : State) : Outcome := .next (s.hallEvent fun s => s.outputAKey b)

/-- OUTPUT_B (R38). -/
def execOutputB (b : Nat) (s : State) : Outcome := .next (s.hallEvent fun s => s.outputBKey b)

-- Turn timing (R42, R43)

/-- The overdue test of seat `n` of booth `b` (R43). -/
def State.overdueTest (s : State) (b n : Nat) : State :=
  let v := s.booth b
  let seat := v.seat n
  if seat.onAir && v.config.turnLimit ≤ seat.turn && !seat.overdue then
    (s.setBooth b (v.setSeat n { seat with overdue := true })).notifyOps (.turnOverdue b n seat.turn)
  else s

/-- A minute tick at seat `n` of booth `b`: an on-air seat counts a minute of its turn and a live-minute (R42), and is
tested (R43). -/
def State.countSeatMinute (s : State) (b n : Nat) : State :=
  let v := s.booth b
  let seat := v.seat n
  if seat.onAir then
    (s.setBooth b (v.setSeat n
      { seat with
        turn := satAdd Config.top16 seat.turn 1
        liveMinutes := satAdd Config.top32 seat.liveMinutes 1 })).overdueTest b n
  else s

/-- The 48 seats, by booth and seat. -/
def allSeats : List (Nat × Nat) := (List.range' 1 16).flatMap fun b => [(b, 1), (b, 2), (b, 3)]

/-- A minute tick at the booth controller (R42, R43, R199). -/
def State.countSeatMinutes (s : State) : State := allSeats.foldl (fun s x => s.countSeatMinute x.1 x.2) s

-- The handover window (R56)

/-- The pending request of booth `b` lapses (R56). -/
def State.lapse (s : State) (b : Nat) : State :=
  let v := s.booth b
  match v.handover with
  | none => s
  | some r =>
    (s.setBooth b { v with handover := none }).notifyOps (.handoverLapsed b r.requester v.onAirSeat)

/-- HANDOVER_LAPSE(b): the window of a pending request has reached 0 (R56); a booth in NONE is not touched (R57). -/
def execHandoverLapse (b : Nat) (s : State) : Outcome := .next (s.hallEvent fun s => s.lapse b)

/-- A second event at booth `b`: the remaining window decreases by 1, and the request lapses when it reaches 0 (R56). -/
def State.countWindow (s : State) (b : Nat) : State :=
  let v := s.booth b
  match v.handover with
  | none => s
  | some r =>
    if r.window ≤ 1 then s.lapse b else s.setBooth b { v with handover := some { r with window := r.window - 1 } }

/-- FLASH_TIMER_EXPIRY(b, lamp): the lamp's timer has run out and it stops flashing (R41). -/
def execFlashTimerExpiry (b : Nat) (lamp : FlashLamp) (s : State) : Outcome :=
  .next (s.hallEvent fun s => s.setBooth b { s.booth b with flash := (s.booth b).flash.set lamp 0 })

-- Booth configuration (R29 to R31)

/-- The selected output after the configuration is written: A if output B was selected and has no language (R30, step 1). -/
def Booth.keptOutput (v : Booth) (c : BoothConfig) : Output :=
  if v.selected = .b && c.outputB.isNone then .a else v.selected

/-- Step 2 of R30: the selected output language has changed from `x` to the one now selected. With a seat on air a switch
is made; if it cannot be, the seat goes OFF with a release. -/
def State.configLanguage (s : State) (b : Nat) (x : Option Nat) : State :=
  let v := s.booth b
  match v.onAirSeat with
  | none => s
  | some n =>
    match v.language with
    | none => s.goOffAir b n x
    | some y =>
      match s.switchTo b x y with
      | some t => t
      | none => s.goOffAir b n x

/-- Step 4 of R30: booth `b`'s own relay is dropped if its accepted set does not hold its source's language (R81). -/
def State.configRelay (s : State) (b : Nat) : State :=
  let v := s.booth b
  match v.input with
  | .floor => s
  | .relay src =>
    match (s.booth src).language with
    | none => s.dropTaker src .notUnderstood b
    | some l => if v.config.accepted.contains l then s else s.dropTaker src .notUnderstood b

/-- Steps 3 and 4 of R30: follow or drop for booth `b`'s takers when its selected output language has changed to `y`, and
the test of its own relay. The two steps write different fields, so that their order shows in the notices alone: these are
queued in ascending taker number (R85), booth `b`'s own drop in its place among them (DEDUCED, log entry 39). -/
def State.configRelays (s : State) (b : Nat) (changed : Bool) (y : Option Nat) : State :=
  (setAdd b (if changed then (s.booth b).takers else [])).foldl
    (fun s c => if c = b then s.configRelay b else s.followOrDropOne b y c) s

/-- An accepted BOOTH_CONFIG that changes a field (R30). -/
def State.configure (s : State) (b : Nat) (c : BoothConfig) : State :=
  let v := s.booth b
  let written := s.setBooth b { v with config := c, selected := v.keptOutput c }
  let y := (written.booth b).language
  let switched := if v.language = y then written else written.configLanguage b v.language
  let relayed := switched.configRelays b (decide (v.language ≠ y)) y
  match (relayed.booth b).onAirSeat with
  | none => relayed
  | some n => if v.config.turnLimit = c.turnLimit then relayed else relayed.overdueTest b n

/-- A language a configuration names is undefined (R29, step 3). -/
def State.undefinedIn (s : State) (c : BoothConfig) : Bool :=
  (c.outputA.toList ++ c.outputB.toList ++ c.accepted).any fun l => !(s.language l).defined

/-- BOOTH_CONFIG(booth, output A, output B, mode, accepted set, turn limit) (R29, R30, R31, R208). -/
def doBoothConfig (p : Port) (payload : List Byte) (s : State) : State × Reply :=
  match payload with
  | [flags, booth, outA, outB, modeByte, count, m1, m2, m3, m4, limit] =>
    let b := booth.toNat
    match conditionOf flags, outputOf outA, outputOf outB, modeOf modeByte, acceptedOf count [m1, m2, m3, m4] with
    | some cond, some a, some o, some mode, some accepted =>
      let c : BoothConfig := ⟨a, o, mode, accepted, limit.toNat⟩
      if !s.boothOk booth || limit.toNat < 10 || 90 < limit.toNat then refuse s .badArg
      else if !s.conditionMet cond p ⟨.booth b, 0⟩ then refuse s .reservationLost
      else if s.undefinedIn c then refuse s .noRecord
      else if (s.booth b).config = c then (s.consume cond p, .bare .ok)
      else ((s.configure b c).consume cond p, .bare .ok)
    | _, _, _, _, _ => refuse s .badArg
  | _ => refuse s .badArg

/-- BOOTH_CONFIG (R30). -/
def execBoothConfig (p : Port) (tag : Byte) (payload : List Byte) (s : State) : Outcome :=
  .next (s.command p tag CommandName.boothConfig.code payload fun s =>
    s.answer .boothConfig p payload (doBoothConfig p payload))

-- Forced seat commands (R59 to R61)

/-- A reply of SEAT_FORCE_TAKE: result, outcome and the seat on air before (R59, section 12.4). -/
def seatReply (r : Result) (o : SeatOutcome) (before : Option Nat) : Reply :=
  ⟨r, byte1 o.code ++ byteIndex before⟩

/-- SEAT_FORCE_TAKE that has passed the checks of R59 (R60). -/
def State.forceTake (s : State) (b n : Nat) : State × Reply :=
  let v := s.booth b
  match v.onAirSeat with
  | some t =>
    if t = n then (s, seatReply .ok .alreadyOnAir (some t))
    else (s.transfer b t n, seatReply .ok .transferred (some t))
  | none =>
    match v.language with
    | none => (s, seatReply .wrongState .noLanguage none)
    | some l =>
      match s.goOnAir b n l with
      | none => (s, seatReply .wrongState .occupied none)
      | some t => (t, seatReply .ok .onAir none)

/-- SEAT_FORCE_TAKE(booth, seat) (R59, R60). -/
def doSeatForceTake (_p : Port) (payload : List Byte) (s : State) : State × Reply :=
  match payload with
  | [booth, seat] =>
    let v := s.booth booth.toNat
    if !s.boothOk booth || !seatOk seat.toNat then refuse s .badArg
    else if !v.present || (v.seat seat.toNat).state = .absent then refuse s .wrongState
    else s.forceTake booth.toNat seat.toNat
  | _ => refuse s .badArg

/-- SEAT_FORCE_TAKE (R60). -/
def execSeatForceTake (p : Port) (tag : Byte) (payload : List Byte) (s : State) : Outcome :=
  .next (s.command p tag CommandName.seatForceTake.code payload fun s =>
    s.answer .seatForceTake p payload (doSeatForceTake p payload))

/-- SEAT_FORCE_OFF(booth) (R61). -/
def doSeatForceOff (_p : Port) (payload : List Byte) (s : State) : State × Reply :=
  match payload with
  | [booth] =>
    let v := s.booth booth.toNat
    if !s.boothOk booth then refuse s .badArg
    else
      match v.onAirSeat with
      | none => refuse s .wrongState
      | some n => (s.goOffAir booth.toNat n v.language, ⟨.ok, byte1 n ++ byte2 (v.seat n).turn⟩)
  | _ => refuse s .badArg

/-- SEAT_FORCE_OFF (R61). -/
def execSeatForceOff (p : Port) (tag : Byte) (payload : List Byte) (s : State) : Outcome :=
  .next (s.command p tag CommandName.seatForceOff.code payload fun s =>
    s.answer .seatForceOff p payload (doSeatForceOff p payload))

end Sys2Proof.Machine
end

