-- ==== Sys2Proof/Machine/BoothLink.lean ====
section
/-!
DEFINITION. Chapter 5: the poll cycle, joining, polling, losing a booth, and the delivery of key events.
-/
namespace Sys2Proof.Machine

/-- A booth's link record written. -/
def State.setLink (s : State) (b : Nat) (k : Link) : State := s.setBooth b { s.booth b with link := k }

/-- A booth's link state written, the rest of its link record kept. -/
def State.setLinkState (s : State) (b : Nat) (k : LinkState) : State :=
  s.setLink b { (s.booth b).link with state := k }

/-- An answer on the booth link is received only within the slot of its own booth while that slot waits for it, and the
slot takes one answer (R87): `own` takes it, and the slot is over. Any other answer is not received and changes nothing. -/
def State.inSlot (s : State) (b : Nat) (own : State → State) : State :=
  match s.line with
  | none => s
  | some (x, _) => if x = b then own { s with line := none } else s

-- Losing a booth (section 5.4)

/-- The booth controller's part of a loss (R46): an on-air seat goes OFF with a release, every seat is reset, the
abilities are cleared, output A is selected, every flash timer stops. -/
def State.controllerLoss (s : State) (b : Nat) : State :=
  let v := s.booth b
  let released :=
    match v.onAirSeat with
    | none => s
    | some n => s.goOffAir b n v.language
  let w := released.booth b
  let reset (n : Nat) (w : Booth) : Booth :=
    w.setSeat n { w.seat n with state := .off, turn := 0, overdue := false }
  released.setBooth b
    { reset 3 (reset 2 (reset 1 w)) with
      granted := none
      selected := .a
      handover := none
      flash := ⟨0, 0, 0⟩ }

/-- The loss of a booth, in the order of R97; the cause is RESTARTED for a console that restarted (R98). -/
def State.loseBooth (s : State) (b : Nat) (cause : Cause) : State :=
  let seat := (s.booth b).onAirSeat
  let k := (s.booth b).link
  let unlinked := s.setLink b { k with state := .absent, grant := none, missed := 0, lastSequence := 0 }
  (((unlinked.notifyOps (.boothLost b cause seat)).controllerLoss b).relayLoss b).clearPresence b

-- Joining (section 5.2)

/-- The grant computed from an advertisement and the profile's seat cap (R90). -/
def State.grantFor (s : State) (a : Abilities) : Abilities := { a with seats := min a.seats s.profile.seatCap }

/-- An advertisement is judged possible or impossible (R89, R101). -/
def State.judge (s : State) (b : Nat) (a : Abilities) : State :=
  let k := (s.booth b).link
  if a.seats = 0 || 3 < a.seats then
    ((s.setLink b { k with state := .faultWait, waitRemaining := Config.faultWaitCycles }).notifyOps
      (.joinFault b a.seats)).setFault b
  else s.setLink b { k with state := .negotiating, grant := some (s.grantFor a), grantPolls := 0 }

/-- No acknowledgement of a GRANT: after the second grant poll the booth goes to ABSENT (R91). The grant and the grant
polls sent, which no rule uses in ABSENT, stay in the record (DESIGN CHOICE, log entry 40). -/
def State.noAcknowledgement (s : State) (b : Nat) : State :=
  if 2 ≤ (s.booth b).link.grantPolls then s.setLinkState b .absent else s

/-- The seat records of a join: OFF up to the granted count, ABSENT above it, turn counter 0, overdue mark clear
(R45). -/
def joinSeat (granted : Nat) (n : Nat) (v : Booth) : Booth :=
  v.setSeat n
    { v.seat n with state := if n ≤ granted then .off else .absent, turn := 0, overdue := false }

/-- A booth joins with its grant (R45, R92). -/
def State.join (s : State) (b : Nat) (g : Abilities) : State :=
  let v := s.booth b
  let w := joinSeat g.seats 3 (joinSeat g.seats 2 (joinSeat g.seats 1 v))
  (s.setBooth b
    { w with
      link := { v.link with state := .present, missed := 0, lastSequence := 1 }
      granted := some g
      selected := .a
      handover := none
      stack := .initial }).notifyOps (.boothJoined b g)

-- Polling (section 5.3)

/-- An unanswered slot of a PRESENT booth: the third in a row loses it (R95, R97). -/
def State.missedPoll (s : State) (b : Nat) : State :=
  let k := (s.booth b).link
  if 3 ≤ k.missed + 1 then s.loseBooth b .noAnswer else s.setLink b { k with missed := k.missed + 1 }

/-- A slot that ends without the answer its message calls for (R89, R91, R95). -/
def State.unanswered (s : State) (b : Nat) : State :=
  match (s.booth b).link.state with
  | .absent | .faultWait => s
  | .negotiating => s.noAcknowledgement b
  | .present => s.missedPoll b

/-- A key event delivered to the block that owns its meaning and taken whole, the feed link engine following it (R22,
R96); an event of another kind is discarded (R96). -/
def State.deliver (s : State) (b : Nat) : KeyEvent → State
  | .mic n => (s.micKey b n).feedWork
  | .muteDown n => (s.muteKey b n .live .muted).feedWork
  | .muteUp n => (s.muteKey b n .muted .live).feedWork
  | .outputA => (s.outputAKey b).feedWork
  | .outputB => (s.outputBKey b).feedWork
  | .floorSel => (s.floorKey b).feedWork
  | .relaySel x => (s.relayKey b x).feedWork
  | .previous => (s.previousKey b).feedWork
  | .other _ => s

/-- A STATUS_REPLY received in answer to a POLL (R95): new events, a repeat, or malformed. -/
def State.takeReply (s : State) (b : Nat) (sequence : Fin 2) (events : List KeyEvent) : State :=
  let k := (s.booth b).link
  if (k.grant.map (·.events)).getD 0 < events.length then s.missedPoll b
  else if sequence = k.lastSequence then s.setLink b { k with missed := 0 }
  else
    let delivered := events.foldl (fun s e => s.deliver b e) s
    delivered.setLink b { (delivered.booth b).link with missed := 0, lastSequence := sequence }

/-- STATUS_REPLY of booth `b` (R95, R96); in answer to another message it is no acknowledgement, or leaves the booth
ABSENT (R89, R91). -/
def State.statusReply (s : State) (b : Nat) (sequence : Fin 2) (events : List KeyEvent) : State :=
  if !s.boothFitted b then s
  else if (s.booth b).present then s.takeReply b sequence events
  else s.unanswered b

/-- STATUS_REPLY (R95). -/
def execStatusReply (b : Nat) (sequence : Fin 2) (events : List KeyEvent) (s : State) : Outcome :=
  .next (s.hallEvent fun s => s.inSlot b fun s => s.statusReply b sequence events)

/-- SLOT_UNANSWERED of booth `b` (R95, R91, R89). -/
def execSlotUnanswered (b : Nat) (s : State) : Outcome :=
  .next (s.hallEvent fun s => s.inSlot b fun s => if s.boothFitted b then s.unanswered b else s)

/-- ADVERTISE of booth `b` (R89); in answer to a POLL it is a restarted console (R98), in answer to a GRANT no
acknowledgement (R91); a booth in FAULT_WAIT is sent nothing and takes no answer (R93). -/
def State.takeAdvertise (s : State) (b : Nat) (a : Abilities) : State :=
  if !s.boothFitted b then s
  else
    match (s.booth b).link.state with
    | .absent => s.judge b a
    | .negotiating => s.noAcknowledgement b
    | .present => (s.loseBooth b .restarted).judge b a
    | .faultWait => s

/-- ADVERTISE (R89). -/
def execAdvertise (b : Nat) (a : Abilities) (s : State) : Outcome :=
  .next (s.hallEvent fun s => s.inSlot b fun s => s.takeAdvertise b a)

/-- GRANT_ACK of booth `b` (R91, R92): abilities equal to the grant in every field make the booth join; in answer to
another message it counts as that message's unanswered slot. -/
def State.takeGrantAck (s : State) (b : Nat) (taken : Abilities) : State :=
  if !s.boothFitted b then s
  else if (s.booth b).link.state = .negotiating && (s.booth b).link.grant = some taken then s.join b taken
  else s.unanswered b

/-- GRANT_ACK (R91). -/
def execGrantAck (b : Nat) (taken : Abilities) (s : State) : Outcome :=
  .next (s.hallEvent fun s => s.inSlot b fun s => s.takeGrantAck b taken)

-- The cycle (sections 5.1, 5.5)

/-- A booth in FAULT_WAIT goes to ABSENT, its wait having run out (R93). -/
def State.endFaultWait (s : State) (b : Nat) : State :=
  let k := (s.booth b).link
  if k.state = .faultWait then s.setLink b { k with state := .absent, waitRemaining := 0 } else s

/-- The end of a cycle at booth `b`: the wait remaining of a booth in FAULT_WAIT decreases by 1, and the booth goes to
ABSENT when it reaches 0 (R93). -/
def State.countWait (s : State) (b : Nat) : State :=
  let k := (s.booth b).link
  if k.state = .faultWait then
    (if k.waitRemaining ≤ 1 then s.endFaultWait b else s.setLink b { k with waitRemaining := k.waitRemaining - 1 })
  else s

/-- The end of a cycle (R93). -/
def State.endCycle (s : State) : State := (List.range' 1 16).foldl State.countWait s

/-- The message of a booth's slot, by its link state (R87, R89, R91, R94, R99). -/
def State.slotMessage (s : State) (b : Nat) : Option LinkMessage :=
  let k := (s.booth b).link
  match k.state with
  | .absent => some .joinProbe
  | .negotiating => k.grant.map .grant
  | .present => some (.poll k.lastSequence (s.lamps b))
  | .faultWait => none

/-- The slot of booth `b` begins: its message is sent, and a GRANT counts as a grant poll (R91). The slot of an unfitted
booth stays silent (R87). -/
def State.beginSlot (s : State) (b : Nat) : State :=
  if s.boothFitted b then
    let k := (s.booth b).link
    let t := { s with line := (s.slotMessage b).map fun m => (b, m) }
    if k.state = .negotiating then t.setLink b { k with grantPolls := k.grantPolls + 1 } else t
  else { s with line := none }

/-- BOOTH_SLOT(b): the poll cycle reaches booth `b`'s slot (R87). The slot of booth 1 begins a cycle and so comes after
the end of the cycle before it, at which the waits in FAULT_WAIT count down (R93). -/
def State.boothSlot (s : State) (b : Nat) : State := (if b = 1 then s.endCycle else s).beginSlot b

/-- BOOTH_SLOT (R87). -/
def execBoothSlot (b : Nat) (s : State) : Outcome := .next (s.hallEvent fun s => s.boothSlot b)

/-- FAULT_WAIT_END(b): the booth's 200-cycle wait has run out (R93). -/
def execFaultWaitEnd (b : Nat) (s : State) : Outcome := .next (s.hallEvent fun s => s.endFaultWait b)

end Sys2Proof.Machine
end

