-- ==== Sys2Proof/Machine/Clock.lean ====
section
/-!
DEFINITION. Section 11.1: the time base, its second events and minute ticks, CLOCK_SET and DAY_CLOSE.
-/
namespace Sys2Proof.Machine

/-- CLOCK_SET(minute) (R200). -/
def doClockSet (_p : Port) (payload : List Byte) (s : State) : State × Reply :=
  match payload with
  | [a, b, c] =>
    let minute := num3 a b c
    ({ s with minute := minute, second := 0, suspect := false }, ⟨.ok, byte3 s.minute ++ byte3 minute⟩)
  | _ => refuse s .badArg

/-- CLOCK_SET (R200). -/
def execClockSet (p : Port) (tag : Byte) (payload : List Byte) (s : State) : Outcome :=
  .next (s.command p tag CommandName.clockSet.code payload fun s =>
    s.answer .clockSet p payload (doClockSet p payload))

/-- DAY_CLOSE (R201). -/
def doDayClose (_p : Port) (_payload : List Byte) (s : State) : State × Reply :=
  let day := satAdd Config.topDay s.day 1
  ({ s with day := day }, ⟨.ok, byte2 day⟩)

/-- DAY_CLOSE (R201). -/
def execDayClose (p : Port) (tag : Byte) (payload : List Byte) (s : State) : Outcome :=
  .next (s.command p tag CommandName.dayClose.code payload fun s =>
    s.answer .dayClose p payload (doDayClose p payload))

/-- The channel map's part of a minute tick (R23). -/
def State.countChannelMinutes (s : State) : State := (List.range' 1 24).foldl State.countChannelMinute s

/-- A minute tick: the second count becomes 0, the hall minute increases, and the channel map and the booth controller
count (R199). -/
def State.tickMinute (s : State) : State :=
  ({ s with second := 0, minute := satAdd Config.topMinute s.minute 1 }).countChannelMinutes.countSeatMinutes

/-- MINUTE_TICK: the second event that brings the second count to 60 (R199). -/
def execMinuteTick (s : State) : Outcome := .next (s.hallEvent State.tickMinute)

/-- The second count increases by 1, and a minute tick is made at 60 (R198, R199). -/
def State.countSecond (s : State) : State :=
  if 60 ≤ s.second + 1 then s.tickMinute else { s with second := s.second + 1 }

/-- A second event: every REDIRECT channel and every REQUESTED booth takes it, and the second count increases (R198). -/
def State.tickSecond (s : State) : State :=
  let held := (List.range' 1 24).foldl State.countHold s
  let windows := (List.range' 1 16).foldl State.countWindow held
  windows.countSecond

/-- SECOND_EVENT (R198). -/
def execSecondEvent (s : State) : Outcome := .next (s.hallEvent State.tickSecond)

end Sys2Proof.Machine
end

