-- ==== Sys2Proof/Machine/Receivers.lean ====
section
/-!
DEFINITION. The receiver pool (section 6.1), the slot contexts and the small writes that issues, returns and losses share.
-/
namespace Sys2Proof.Machine

-- Slot contexts (R111)

/-- The scan probes a slot in this state (R112). -/
def SlotState.probed : SlotState → Bool
  | .empty | .arriving | .occupied | .departing | .issuing | .held => true
  | .identifying | .returning | .faulted => false

/-- Write a slot context. A slot that leaves the probed states loses its due mark, so that it is first due again at the
round after it enters them (R112). -/
def State.setSlot (s : State) (r : Rack) (n : Nat) (v : Slot) : State :=
  let e := s.rack r
  s.setRack r
    { e with
      slots := tabSet .initial e.slots n v
      due := if v.state.probed then e.due else setDel n e.due }

/-- The enrolled record whose serial the slot's ident names, with its index. -/
def State.identReceiver (s : State) (v : Slot) : Option (Nat × Receiver) :=
  match v.ident with
  | none => none
  | some i => s.bySerial i.serial

/-- A slot of either rack that is RETURNING or HELD holds an ident of the serial (R116, R159). -/
def State.returnInHand (s : State) (serial : Nat) : Bool :=
  [Rack.a, Rack.b].any fun r => (List.range 32).any fun n =>
    let v := s.slot r n
    (v.state = .returning || v.state = .held) && v.ident.map (·.serial) = some serial

/-- Every slot the profile fits on a rack, rising (R111). -/
def State.fittedSlots (s : State) (r : Rack) : List Nat :=
  if s.rackFitted r then List.range s.profile.slots else []

-- Entries and listeners (R5, R130)

/-- A language's listener count increased by 1 (R119). -/
def State.addListener (s : State) (l : Nat) : State :=
  s.setLanguage l { s.language l with listeners := (s.language l).listeners + 1 }

/-- A language's listener count decreased by 1 (R122, R153, R160). -/
def State.dropListener (s : State) (l : Nat) : State :=
  s.setLanguage l { s.language l with listeners := (s.language l).listeners - 1 }

/-- An OPEN account written. -/
def State.setOpen (s : State) (ref : AccountRef) (o : OpenAccount) : State :=
  s.setAccount ref.index { s.account ref.index with account := some o }

/-- The entry list with the receiver's entry removed, the others keeping their order (R130). -/
def withoutEntry (i : Nat) (entries : List Entry) : List Entry := entries.filter fun e => e.receiver ≠ i

/-- The receiver's entry of an account removed (R122). -/
def State.removeEntry (s : State) (ref : AccountRef) (i : Nat) : State :=
  match s.openAccount ref with
  | none => s
  | some o => s.setOpen ref { o with entries := withoutEntry i o.entries }

/-- The receiver's entry of an account becomes HELD (R121). -/
def State.holdEntry (s : State) (ref : AccountRef) (i : Nat) : State :=
  match s.openAccount ref with
  | none => s
  | some o =>
    s.setOpen ref { o with entries := o.entries.map fun e => if e.receiver = i then { e with held := true } else e }

-- The pool (R103 to R107)

/-- The lowest free receiver record (R103). -/
def State.freeReceiver (s : State) : Option Nat := firstFrom (fun i => (s.receiver i).isNone) 4096 0

/-- RECEIVER_ENROLL(serial) (R104). -/
def doReceiverEnroll (_p : Port) (payload : List Byte) (s : State) : State × Reply :=
  match payload with
  | [a, b, c] =>
    let serial := num3 a b c
    if !serialOk serial then refuse s .badArg
    else if (s.bySerial serial).isSome then refuse s .exists
    else
      match s.freeReceiver with
      | none => refuse s .limit
      | some i => (s.setReceiver i (some ⟨serial, .stock, 0, 0⟩), ⟨.ok, byte2 i⟩)
  | _ => refuse s .badArg

/-- RECEIVER_ENROLL (R104). -/
def execReceiverEnroll (p : Port) (tag : Byte) (payload : List Byte) (s : State) : Outcome :=
  .next (s.command p tag CommandName.receiverEnroll.code payload fun s =>
    s.answer .receiverEnroll p payload (doReceiverEnroll p payload))

/-- RECEIVER_RETIRE(serial) (R106). -/
def doReceiverRetire (_p : Port) (payload : List Byte) (s : State) : State × Reply :=
  match payload with
  | [a, b, c] =>
    let serial := num3 a b c
    if !serialOk serial then refuse s .badArg
    else
      match s.bySerial serial with
      | none => refuse s .noRecord
      | some (i, v) =>
        match v.state with
        | .pending _ _ _ | .issued _ _ _ _ | .lost _ _ => refuse s .wrongState
        | .stock | .service => (s.setReceiver i none, .bare .ok)
  | _ => refuse s .badArg

/-- RECEIVER_RETIRE (R106). -/
def execReceiverRetire (p : Port) (tag : Byte) (payload : List Byte) (s : State) : Outcome :=
  .next (s.command p tag CommandName.receiverRetire.code payload fun s =>
    s.answer .receiverRetire p payload (doReceiverRetire p payload))

/-- RECEIVER_SERVICE(serial, set/clear) (R107). -/
def doReceiverService (_p : Port) (payload : List Byte) (s : State) : State × Reply :=
  match payload with
  | [a, b, c, setByte] =>
    let serial := num3 a b c
    match flagOf setByte with
    | none => refuse s .badArg
    | some on =>
      if !serialOk serial then refuse s .badArg
      else
        match s.bySerial serial with
        | none => refuse s .noRecord
        | some (i, v) =>
          match v.state, on with
          | .stock, true => (s.setReceiver i (some { v with state := .service }), .bare .ok)
          | .service, false => (s.setReceiver i (some { v with state := .stock, issues := 0 }), .bare .ok)
          | .stock, false | .service, true => (s, .bare .ok)
          | .pending _ _ _, _ | .issued _ _ _ _, _ | .lost _ _, _ => refuse s .wrongState
  | _ => refuse s .badArg

/-- RECEIVER_SERVICE (R107). -/
def execReceiverService (p : Port) (tag : Byte) (payload : List Byte) (s : State) : Outcome :=
  .next (s.command p tag CommandName.receiverService.code payload fun s =>
    s.answer .receiverService p payload (doReceiverService p payload))

/-- The slot byte names a fitted slot of the port's own rack: that rack, none for BAD_ARG (R105, R124). -/
def State.ownSlot (s : State) (p : Port) (slot : Byte) : Option Rack :=
  match ownRack p with
  | none => none
  | some r => if slot.toNat ≤ 31 && s.slotFitted r slot.toNat then some r else none

/-- ENROLL_SLOT(slot) (R105). -/
def doEnrollSlot (p : Port) (payload : List Byte) (s : State) : State × Reply :=
  match payload with
  | [slot] =>
    match s.ownSlot p slot with
    | none => refuse s .badArg
    | some r =>
      let v := s.slot r slot.toNat
      if v.state ≠ .occupied then refuse s .wrongState
      else
        match v.ident with
        | none => refuse s .wrongState
        | some ident =>
          if !serialOk ident.serial then refuse s .badArg
          else if (s.bySerial ident.serial).isSome then refuse s .exists
          else
            match s.freeReceiver with
            | none => refuse s .limit
            | some i =>
              (s.setReceiver i (some ⟨ident.serial, .stock, ident.battery, 0⟩), ⟨.ok, byte2 i ++ byte3 ident.serial⟩)
  | _ => refuse s .badArg

/-- ENROLL_SLOT (R105). -/
def execEnrollSlot (p : Port) (tag : Byte) (payload : List Byte) (s : State) : Outcome :=
  .next (s.command p tag CommandName.enrollSlot.code payload fun s =>
    s.answer .enrollSlot p payload (doEnrollSlot p payload))

end Sys2Proof.Machine
end

