-- ==== Sys2Proof/Machine/Accounts.lean ====
section
/-!
DEFINITION. Chapter 7: credential filters and classification, tariff classes, opening, finding and adjusting an account.
-/
namespace Sys2Proof.Machine

-- Credential filters (section 7.6)

/-- The selected positions of a filter, ascending (R144). -/
def Filter.positions (f : Filter) : List Nat :=
  ((List.range 32).filter fun i => f.mask.getLsbD i).map fun i => f.offset + i

/-- The highest selected position of a filter, none for a mask of 0 (R144). -/
def Filter.highest (f : Filter) : Option Nat := f.positions.getLast?

/-- The bytes of a credential that a filter selects, by ascending position (R146). -/
def Filter.select (f : Filter) (credential : List Byte) : List Byte :=
  f.positions.filterMap fun i => credential[i]?

/-- The groups of the filters, by their chain flags alone (R145). -/
def State.groups (s : State) : List (List Nat) :=
  (List.range 8).foldr
    (fun k groups =>
      if (s.filter k).chain then
        match groups with
        | [] => [[k]]
        | g :: rest => (k :: g) :: rest
      else [k] :: groups) []

/-- A member of a group can take part in a match: enabled, its mask not zero, every selected position below the
credential's length (R146, steps 1 to 3). -/
def Filter.applies (f : Filter) (length : Nat) : Bool :=
  f.enabled && f.mask ≠ 0 && f.positions.all fun i => i < length

/-- The group matches the credential: none if not, the class of its last member if so (R146, R147). -/
def State.groupClass (s : State) (credential : List Byte) (group : List Nat) : Option Nat :=
  match group.getLast? with
  | none => none
  | some k =>
    let last := s.filter k
    let bytes := group.flatMap fun j => (s.filter j).select credential
    if group.all (fun j => (s.filter j).applies credential.length) && crc16 bytes = last.compare
        && (last.highest.bind fun i => credential[i]?) = some last.lastByte then some last.tariffClass
    else none

/-- The class of a credential: that of the first group that matches, 0 if none does (R147). -/
def State.classify (s : State) (credential : List Byte) : Nat :=
  (s.groups.findSome? fun g => s.groupClass credential g).getD 0

/-- FILTER_WRITE(filter, enabled, offset, mask, compare CRC, last-byte value, chain, class) (R144). -/
def doFilterWrite (_p : Port) (payload : List Byte) (s : State) : State × Reply :=
  match payload with
  | [filter, enabledByte, offset, m1, m2, m3, m4, c1, c2, last, chainByte, cls] =>
    match flagOf enabledByte, flagOf chainByte with
    | some enabled, some chain =>
      let f : Filter :=
        ⟨enabled, offset.toNat, BitVec.ofNat 32 (num4 m1 m2 m3 m4), BitVec.ofNat 16 (num2 c1 c2), last, chain,
          cls.toNat⟩
      if 7 < filter.toNat || 63 < f.offset || 7 < f.tariffClass || (chain && filter.toNat = 7)
          || f.positions.any (fun i => 63 < i) then refuse s .badArg
      else (s.setFilter filter.toNat f, .bare .ok)
    | _, _ => refuse s .badArg
  | _ => refuse s .badArg

/-- FILTER_WRITE (R144). -/
def execFilterWrite (p : Port) (tag : Byte) (payload : List Byte) (s : State) : Outcome :=
  .next (s.command p tag CommandName.filterWrite.code payload fun s =>
    s.answer .filterWrite p payload (doFilterWrite p payload))

-- Tariff classes (section 7.2)

/-- TARIFF_WRITE(class, rate, unit length, grace, day cap, deposit, loss charge, issue limit) (R133). -/
def doTariffWrite (p : Port) (payload : List Byte) (s : State) : State × Reply :=
  match payload with
  | [flags, cls, r1, r2, unit, grace, k1, k2, k3, d1, d2, l1, l2, limit] =>
    match conditionOf flags with
    | none => refuse s .badArg
    | some cond =>
      let k := cls.toNat
      if 7 < k || unit = 0 || 240 < unit.toNat || limit = 0 || 4 < limit.toNat then refuse s .badArg
      else if !s.conditionMet cond p ⟨.tariff k, 0⟩ then refuse s .reservationLost
      else
        ((s.setTariff k
          ⟨num2 r1 r2, unit.toNat, grace.toNat, num3 k1 k2 k3, num2 d1 d2, num2 l1 l2, limit.toNat⟩).consume cond p,
          .bare .ok)
  | _ => refuse s .badArg

/-- TARIFF_WRITE (R133). -/
def execTariffWrite (p : Port) (tag : Byte) (payload : List Byte) (s : State) : Outcome :=
  .next (s.command p tag CommandName.tariffWrite.code payload fun s =>
    s.answer .tariffWrite p payload (doTariffWrite p payload))

-- Opening and finding (sections 7.3, 7.4)

/-- The OPEN account with a digest, with its index (R135, R140). -/
def findDigest (digest : Word16) : Tab Account → Option (AccountRef × OpenAccount)
  | [] => none
  | (i, a) :: rest =>
    match a.account with
    | none => findDigest digest rest
    | some o => if o.digest = digest then some (⟨i, a.generation⟩, o) else findDigest digest rest

/-- The OPEN account with a digest (R135, R140). -/
def State.byDigest (s : State) (digest : Word16) : Option (AccountRef × OpenAccount) := findDigest digest s.accounts

/-- The settlement buffer that holds a reference (R141, R164). -/
def State.settledBuffer (s : State) (ref : AccountRef) : Option Settlement :=
  [s.bufferA, s.bufferB].findSome? fun b => b.filter fun v => v.account = ref

/-- The record can be opened: it is FREE and the reference it would have stands in neither buffer (R136). -/
def State.canOpen (s : State) (i : Nat) : Bool :=
  (s.account i).account.isNone && (s.settledBuffer ⟨i, (s.account i).generation⟩).isNone

/-- The account that opens in a class (R134, R136). -/
def State.opening (s : State) (cls : Nat) (desk : Rack) (digest : Word16) : OpenAccount :=
  ⟨cls, s.tariff cls, 0, [], 0, 0, false, s.now, desk, digest⟩

/-- ACCOUNT_OPEN(credential) (R135, R136). -/
def doAccountOpen (p : Port) (payload : List Byte) (s : State) : State × Reply :=
  let digest := crc16 payload
  match ownRack p with
  | none => refuse s .denied
  | some desk =>
    match s.byDigest digest with
    | some (ref, o) => (s, ⟨.exists, refBytes ref ++ byte1 o.tariffClass⟩)
    | none =>
      let cls := s.classify payload
      match firstFrom s.canOpen 1024 0 with
      | none => refuse s .limit
      | some i =>
        let ref : AccountRef := ⟨i, (s.account i).generation⟩
        (s.setOpen ref (s.opening cls desk digest),
          ⟨.ok, refBytes ref ++ byte1 cls ++ byte2 (s.tariff cls).deposit⟩)

/-- ACCOUNT_OPEN (R136). -/
def execAccountOpen (p : Port) (tag : Byte) (payload : List Byte) (s : State) : Outcome :=
  .next (s.command p tag CommandName.accountOpen.code payload fun s =>
    s.answer .accountOpen p payload (doAccountOpen p payload))

/-- ACCOUNT_FIND(credential) (R140). -/
def doAccountFind (_p : Port) (payload : List Byte) (s : State) : State × Reply :=
  match s.byDigest (crc16 payload) with
  | none => refuse s .noRecord
  | some (ref, o) => (s, ⟨.ok, refBytes ref ++ byte1 o.tariffClass ++ byte1 o.entries.length⟩)

/-- ACCOUNT_FIND (R140). -/
def execAccountFind (p : Port) (tag : Byte) (payload : List Byte) (s : State) : Outcome :=
  .next (s.command p tag CommandName.accountFind.code payload fun s =>
    s.answer .accountFind p payload (doAccountFind p payload))

-- Adjusting (R138)

/-- An account reference as a command carries it (R207). -/
def refOf (hi lo generation : Byte) : AccountRef := ⟨num2 hi lo, generation.toNat⟩

/-- A running charge with a signed amount added, clamped to 0 to 4,294,967,295 (R131, R138). -/
def adjusted (running : Nat) (amount : Int) : Nat := min Config.top32 (Int.ofNat running + amount).toNat

/-- An account with a signed amount added to its running charge; a clamp at the top sets the saturated flag (R138). -/
def OpenAccount.adjust (o : OpenAccount) (amount : Int) : OpenAccount :=
  { o with
    running := adjusted o.running amount
    saturated := o.saturated || decide (Int.ofNat Config.top32 < Int.ofNat o.running + amount) }

/-- ACCOUNT_ADJUST(ref, amount) (R138). -/
def doAccountAdjust (p : Port) (payload : List Byte) (s : State) : State × Reply :=
  match payload with
  | [flags, i1, i2, g, a1, a2, a3, a4] =>
    let ref := refOf i1 i2 g
    match conditionOf flags with
    | none => refuse s .badArg
    | some cond =>
      if 1023 < ref.index then refuse s .badArg
      else if !s.conditionMet cond p ⟨.account ref.index, ref.generation⟩ then refuse s .reservationLost
      else
        match s.openAccount ref with
        | none => refuse s .noRecord
        | some o =>
          let v := o.adjust (signed4 a1 a2 a3 a4)
          ((s.setOpen ref v).consume cond p, ⟨.ok, byte4 v.running ++ byteFlag v.saturated⟩)
  | _ => refuse s .badArg

/-- ACCOUNT_ADJUST (R138). -/
def execAccountAdjust (p : Port) (tag : Byte) (payload : List Byte) (s : State) : Outcome :=
  .next (s.command p tag CommandName.accountAdjust.code payload fun s =>
    s.answer .accountAdjust p payload (doAccountAdjust p payload))

end Sys2Proof.Machine
end

