-- ==== Sys2Proof/Machine/Settlements.lean ====
section
/-!
DEFINITION. Chapter 8: the charge unit, the commit of a return, losses, settlements and the class report counters.
-/
namespace Sys2Proof.Machine

-- The charge unit (R155, R162)

/-- The elapsed minutes, 0 when the clock has been set back (R155, step 1). -/
def elapsed (issued returned : Stamp) : Nat := returned.minute - issued.minute

/-- The whole or begun billing units of the elapsed time beyond the grace (R155, steps 2 and 3). -/
def billedUnits (t : Tariff) (e : Nat) : Nat :=
  let b := e - t.grace
  if b = 0 then 0 else (b + t.unit - 1) / t.unit

/-- The hall days of a hire (R155, step 5). -/
def hireDays (issued returned : Stamp) : Nat :=
  if issued.day ≤ returned.day then returned.day - issued.day + 1 else 1

/-- The charge before its ceiling (R155, steps 1 to 6). -/
def exactCharge (t : Tariff) (issued returned : Stamp) : Nat :=
  let gross := billedUnits t (elapsed issued returned) * t.rate
  if t.dayCap = 0 then gross else min gross (t.dayCap * hireDays issued returned)

/-- An amount clamped at the ceiling of money, with the flag that it was clamped (R131, R155). -/
structure Amount where
  value     : Nat
  saturated : Bool
  deriving DecidableEq, Repr

/-- An exact amount clamped at 4,294,967,295 (R155, R156). -/
def clampAmount (exact : Nat) : Amount := ⟨min Config.top32 exact, decide (Config.top32 < exact)⟩

/-- The charge of one receiver (R155). -/
def charge (t : Tariff) (issued returned : Stamp) : Amount := clampAmount (exactCharge t issued returned)

/-- The charge of a lost receiver: that of its time out, and the snapshot loss charge added (R160, steps 1 and 2). -/
def lossCharge (t : Tariff) (issued now : Stamp) : Amount :=
  let c := charge t issued now
  let sum := clampAmount (c.value + t.lossCharge)
  ⟨sum.value, c.saturated || sum.saturated⟩

/-- A charge taken into the account: the running charge with its clamp, the flag, the served count, the entry removed
(R153, R156, R160). -/
def OpenAccount.charged (o : OpenAccount) (a : Amount) (receiver : Nat) : OpenAccount :=
  let sum := clampAmount (o.running + a.value)
  { o with
    running := sum.value
    saturated := o.saturated || a.saturated || sum.saturated
    entries := withoutEntry receiver o.entries
    served := satAdd Config.top32 o.served 1 }

/-- The settlement record of an account (R162, R163). -/
def settlementOf (ref : AccountRef) (o : OpenAccount) (r : Rack) (now : Stamp) : Settlement :=
  ⟨ref, o.tariffClass, o.snapshot.deposit, o.running, o.running - o.snapshot.deposit, o.snapshot.deposit - o.running,
   o.served, o.losses, o.saturated, r, now⟩

-- Settlement (R163, R168)

/-- The report counters with a settlement gathered in (R168). -/
def ClassReport.gather (c : ClassReport) (v : Settlement) : ClassReport :=
  ⟨satAdd Config.top32 c.settled 1, satAdd Config.top32 c.charged v.total, satAdd Config.top32 c.due v.due,
   satAdd Config.top32 c.refunded v.refund⟩

/-- An account record freed, its generation increased by 1 with wrap (R129, R163). -/
def Account.freed (a : Account) : Account := ⟨(a.generation + 1) % 256, none⟩

/-- A settlement of an account into a rack's buffer (R163). -/
def State.settle (s : State) (ref : AccountRef) (o : OpenAccount) (r : Rack) : State :=
  let v := settlementOf ref o r s.now
  let freed := (s.setBuffer r (some v)).setAccount ref.index (s.account ref.index).freed
  (freed.setReport v.tariffClass ((freed.report v.tariffClass).gather v)).notifyRack r
    (.settlementReady ref v.due v.refund)

/-- ACCOUNT_CLOSE(ref) (R142). -/
def doAccountClose (p : Port) (payload : List Byte) (s : State) : State × Reply :=
  match payload with
  | [flags, i1, i2, g] =>
    let ref := refOf i1 i2 g
    match conditionOf flags, ownRack p with
    | some cond, some r =>
      if 1023 < ref.index then refuse s .badArg
      else if !s.rackFitted r then refuse s .wrongState
      else if !s.conditionMet cond p ⟨.account ref.index, ref.generation⟩ then refuse s .reservationLost
      else
        match s.openAccount ref with
        | none => refuse s .noRecord
        | some o =>
          if !o.entries.isEmpty then refuse s .holdsUnits
          else if (s.buffer r).isSome then refuse s .settleBusy
          else
            let v := settlementOf ref o r s.now
            ((s.settle ref o r).consume cond p, ⟨.ok, refBytes ref ++ byte4 v.due ++ byte4 v.refund⟩)
    | _, _ => refuse s .badArg
  | _ => refuse s .badArg

/-- ACCOUNT_CLOSE (R142). -/
def execAccountClose (p : Port) (tag : Byte) (payload : List Byte) (s : State) : Outcome :=
  .next (s.command p tag CommandName.accountClose.code payload fun s =>
    s.answer .accountClose p payload (doAccountClose p payload))

-- Returns (section 8.1)

/-- The records a return concerns, as they stand: the slot with its ident and return time, the receiver with the fields
its ISSUED state holds, and the account (R150, R151). -/
structure ReturnWork where
  slot     : Slot
  ident    : Ident
  time     : Stamp
  index    : Nat
  receiver : Receiver
  account  : AccountRef
  language : Nat
  issued   : Stamp
  hire     : OpenAccount
  deriving DecidableEq, Repr

/-- The return in hand in a slot: its records, none if one of them is missing, which no run leaves so (R130). -/
def State.returnWork (s : State) (r : Rack) (n : Nat) : Option ReturnWork :=
  let v := s.slot r n
  match v.ident, v.returned, s.identReceiver v with
  | some ident, some time, some (i, receiver) =>
    match receiver.state with
    | .issued ref l _ issued => (s.openAccount ref).map fun o => ⟨v, ident, time, i, receiver, ref, l, issued, o⟩
    | .stock | .pending _ _ _ | .lost _ _ | .service => none
  | _, _, _ => none

/-- The return closes its account: its receiver's entry is the account's only entry (R151). -/
def ReturnWork.closes (w : ReturnWork) : Bool := w.hire.entries.map (·.receiver) = [w.index]

/-- The receiver after a commit: STOCK, or SERVICE at the profile's service interval (R153, R157). -/
def State.returned (s : State) (v : Receiver) : Receiver :=
  let due := s.profile.serviceInterval ≠ 0 && s.profile.serviceInterval ≤ v.issues
  { v with state := if due then .service else .stock }

/-- The slot after a commit (R153, step 7). -/
def ReturnWork.committedSlot (w : ReturnWork) : Slot :=
  { w.slot with
    state := .occupied
    ident := some { w.ident with mark := .stock }
    returned := none
    miss := false }

/-- A return commits (R153), and settles its account if it closes it. -/
def State.commit (s : State) (r : Rack) (n : Nat) (w : ReturnWork) : State :=
  let c := charge w.hire.snapshot w.issued w.time
  let o := w.hire.charged c w.index
  let charged := s.setOpen w.account o
  let back := (charged.setReceiver w.index (some (s.returned w.receiver))).dropListener w.language
  let told := (back.setSlot r n w.committedSlot).notifyRack r
    (.returnDone n w.receiver.serial w.account c.value w.closes)
  if w.closes then told.settle w.account o r else told

/-- A return is held for its rack's FULL buffer (R152). -/
def State.holdReturn (s : State) (r : Rack) (n : Nat) (w : ReturnWork) : State :=
  (s.setSlot r n { w.slot with state := .held, miss := false }).notifyRack r
    (.returnHeld n w.receiver.serial w.account)

/-- The commit decision of a return (R151). -/
def State.decideReturn (s : State) (r : Rack) (n : Nat) (w : ReturnWork) : State :=
  if w.closes && (s.buffer r).isSome then s.holdReturn r n w else s.commit r n w

/-- The MARK stock of a RETURNING slot is DONE: the ident's hire mark becomes stock and the decision is taken (R150). -/
def State.returnMarked (s : State) (r : Rack) (n : Nat) : State :=
  let v := s.slot r n
  let marked := s.setSlot r n { v with ident := v.ident.map fun i => { i with mark := .stock } }
  match marked.returnWork r n with
  | none => marked
  | some w => marked.decideReturn r n w

/-- The notice of a return abandoned in a slot that held `former`; the slot itself is written by the caller and the
records are left as they are (R154). -/
def State.tellAbandoned (s : State) (r : Rack) (n : Nat) (former : Slot) (cause : Cause) : State :=
  match s.identReceiver former with
  | none => s
  | some (_, v) =>
    match v.state with
    | .issued ref _ _ _ => s.notifyRack r (.returnAbandoned n v.serial ref cause)
    | .stock | .pending _ _ _ | .lost _ _ | .service => s

-- Taking a settlement (R165, R166)

/-- A HELD slot is resumed while the rack's buffer is EMPTY (R166). -/
def State.resumeSlot (s : State) (r : Rack) (n : Nat) : State :=
  if (s.buffer r).isSome || (s.slot r n).state ≠ .held then s
  else
    match s.returnWork r n with
    | none => s
    | some w => s.decideReturn r n w

/-- The HELD slots of a rack are resumed in ascending slot number (R166). -/
def State.resume (s : State) (r : Rack) : State := (List.range 32).foldl (fun s n => s.resumeSlot r n) s

/-- SETTLEMENT_TAKE (R165). -/
def doSettlementTake (p : Port) (_payload : List Byte) (s : State) : State × Reply :=
  match ownRack p with
  | none => refuse s .denied
  | some r =>
    match s.buffer r with
    | none => refuse s (if s.rackFitted r then .noRecord else .wrongState)
    | some v => ((s.setBuffer r none).resume r, ⟨.ok, v.bytes⟩)

/-- SETTLEMENT_TAKE (R165). -/
def execSettlementTake (p : Port) (tag : Byte) (payload : List Byte) (s : State) : Outcome :=
  .next (s.command p tag CommandName.settlementTake.code payload fun s =>
    s.answer .settlementTake p payload (doSettlementTake p payload))

-- Losses (R159, R160)

/-- The rack whose buffer receives the settlement of a closing loss: the declaring desk's, or from the operations port
that of the issuing rack, rack A when that is not fitted (R159). -/
def State.lossRack (s : State) (p : Port) (issuing : Rack) : Rack :=
  match ownRack p with
  | some r => r
  | none => if s.rackFitted issuing then issuing else .a

/-- A desk port whose rack is not fitted (R159). -/
def State.deskUnfitted (s : State) (p : Port) : Bool :=
  match ownRack p with
  | none => false
  | some r => !s.rackFitted r

/-- The reply of a loss (section 12.4). -/
def lossReply (ref : AccountRef) (charge : Nat) (closed : Option Settlement) : Reply :=
  ⟨.ok, refBytes ref ++ byte4 charge ++ byteFlag closed.isSome ++ byte4 ((closed.map (·.due)).getD 0)
    ++ byte4 ((closed.map (·.refund)).getD 0)⟩

/-- The loss of receiver `i`, carried out (R160). -/
def State.lose (s : State) (p : Port) (i : Nat) (v : Receiver) (ref : AccountRef) (l : Nat) (issuing : Rack)
    (issued : Stamp) (o : OpenAccount) : State × Reply :=
  let c := lossCharge o.snapshot issued s.now
  let charged := { o.charged c i with losses := satAdd Config.top32 o.losses 1 }
  let t := ((s.setOpen ref charged).setReceiver i (some { v with state := .lost ref issuing })).dropListener l
  if charged.entries.isEmpty then
    let r := s.lossRack p issuing
    (t.settle ref charged r, lossReply ref c.value (some (settlementOf ref charged r s.now)))
  else (t, lossReply ref c.value none)

/-- LOSS_DECLARE(serial) (R159, R160). -/
def doLossDeclare (p : Port) (payload : List Byte) (s : State) : State × Reply :=
  match payload with
  | [a, b, c] =>
    let serial := num3 a b c
    if !serialOk serial then refuse s .badArg
    else if s.deskUnfitted p then refuse s .wrongState
    else
      match s.bySerial serial with
      | none => refuse s .noRecord
      | some (i, v) =>
        match v.state with
        | .issued ref l issuing issued =>
          if s.returnInHand serial then refuse s .wrongState
          else
            match s.openAccount ref with
            | none => refuse s .wrongState
            | some o =>
              if o.entries.map (·.receiver) = [i] && (s.buffer (s.lossRack p issuing)).isSome then
                refuse s .settleBusy
              else s.lose p i v ref l issuing issued o
        | .stock | .pending _ _ _ | .lost _ _ | .service => refuse s .wrongState
  | _ => refuse s .badArg

/-- LOSS_DECLARE (R160). -/
def execLossDeclare (p : Port) (tag : Byte) (payload : List Byte) (s : State) : Outcome :=
  .next (s.command p tag CommandName.lossDeclare.code payload fun s =>
    s.answer .lossDeclare p payload (doLossDeclare p payload))

end Sys2Proof.Machine
end

