-- ==== Sys2Proof/Machine/Reads.lean ====
section
/-!
DEFINITION. Reading records (R181), the reservations (R188, R189), STATUS (R182) and the report counters.
-/
namespace Sys2Proof.Machine

-- STATUS (R182)

/-- STATUS (R182): after the reply is formed, the port's frame-error flag is cleared. -/
def doStatus (p : Port) (_payload : List Byte) (s : State) : State × Reply :=
  (s.setPort p { s.port p with frameError := false }, ⟨.ok, s.statusFields p⟩)

/-- STATUS (R182). -/
def execStatus (p : Port) (tag : Byte) (payload : List Byte) (s : State) : Outcome :=
  .next (s.command p tag CommandName.status.code payload fun s =>
    s.answer .status p payload (doStatus p payload))

-- READ (R181)

/-- What a READ finds: its reply, the reservation a READ_RESERVE of the same record sets, and the booth whose latches the
read updates (R100, R181, R188). -/
structure Finding where
  reply    : Reply
  reserves : Option Reservation
  booth    : Option Nat
  deriving DecidableEq, Repr

/-- A reading refused with a result code. -/
def Finding.refuse (r : Result) : Finding := ⟨.bare r, none, none⟩

/-- A reading answered OK with a record that cannot be reserved. -/
def Finding.record (fields : List Byte) : Finding := ⟨⟨.ok, fields⟩, none, none⟩

/-- A reading answered OK with a record that can be reserved. -/
def Finding.reservable (fields : List Byte) (r : RecordName) (generation : Nat) : Finding :=
  ⟨⟨.ok, fields⟩, some ⟨r, generation⟩, none⟩

/-- READ(LANGUAGE). -/
def State.findLanguage (s : State) (i : Nat) : Finding :=
  if 31 < i then .refuse .badArg else .reservable ((s.language i).bytes i) (.language i) 0

/-- READ(CHANNEL). -/
def State.findChannel (s : State) (c : Nat) : Finding :=
  if c = 0 || 24 < c then .refuse .badArg else .reservable ((s.channel c).bytes c) (.channel c) 0

/-- READ(BOOTH) from a port, with the port's latches of the booth (R100, R101). -/
def State.findBooth (s : State) (p : Port) (b : Nat) : Finding :=
  if b = 0 || 16 < b then .refuse .badArg
  else
    { Finding.reservable ((s.booth b).bytes b ((s.port p).presenceOf b) ((s.port p).faultOf b)) (.booth b) 0 with
      booth := some b }

/-- READ(RECEIVER) by index. -/
def State.findReceiver (s : State) (i : Nat) : Finding :=
  if 4095 < i then .refuse .badArg
  else
    match s.receiver i with
    | none => .refuse .noRecord
    | some v => .record (v.bytes i)

/-- READ(RECEIVER) by serial. -/
def State.findBySerial (s : State) (serial : Nat) : Finding :=
  if !serialOk serial then .refuse .badArg
  else
    match s.bySerial serial with
    | none => .refuse .noRecord
    | some (i, v) => .record (v.bytes i)

/-- READ(ACCOUNT) of a reference (R141). -/
def State.findAccount (s : State) (ref : AccountRef) : Finding :=
  if 1023 < ref.index then .refuse .badArg
  else
    match s.settledBuffer ref with
    | some v => .record (byte1 2 ++ v.bytes)
    | none =>
      match s.openAccount ref with
      | some o => .reservable (o.bytes ref) (.account ref.index) ref.generation
      | none => .refuse .noRecord

/-- READ(TARIFF). -/
def State.findTariff (s : State) (k : Nat) : Finding :=
  if 7 < k then .refuse .badArg else .reservable (byte1 k ++ (s.tariff k).bytes) (.tariff k) 0

/-- READ(FILTER). -/
def State.findFilter (s : State) (k : Nat) : Finding :=
  if 7 < k then .refuse .badArg else .record ((s.filter k).bytes k)

/-- READ(SLOT). -/
def State.findSlot (s : State) (rack slot : Byte) : Finding :=
  match rackOf rack with
  | none => .refuse .badArg
  | some r => if 31 < slot.toNat then .refuse .badArg else .record ((s.slot r slot.toNat).bytes r slot.toNat)

/-- The 24 channel live-minutes (R23). -/
def State.channelReport (s : State) : List Byte :=
  (List.range' 1 24).flatMap fun c => byte4 (s.channel c).liveMinutes

/-- The 48 seat live-minutes (R44). -/
def State.seatReport (s : State) : List Byte :=
  (List.range' 1 16).flatMap fun b => [1, 2, 3].flatMap fun n => byte4 ((s.booth b).seat n).liveMinutes

/-- The 32 class report counters (R168). -/
def State.classReport (s : State) : List Byte := (List.range 8).flatMap fun k => (s.report k).bytes

/-- READ(REPORT) of a group. -/
def State.findReport (s : State) (group : Byte) : Finding :=
  if group = 0x00 then .record s.channelReport
  else if group = 0x01 then .record s.seatReport
  else if group = 0x02 then .record s.classReport
  else .refuse .badArg

/-- READ(SETTLEMENT) (R164, R181): the own rack of a desk port, the rack named by the operations port. -/
def State.findSettlement (s : State) (p : Port) (rack second third : Byte) : Finding :=
  match ownRack p with
  | some r =>
    match s.buffer r with
    | some v => .record v.bytes
    | none => .refuse (if s.rackFitted r then .noRecord else .wrongState)
  | none =>
    if second ≠ 0x00 || third ≠ 0x00 then .refuse .badArg
    else
      match rackOf rack with
      | none => .refuse .badArg
      | some r =>
        match s.buffer r with
        | some v => .record v.bytes
        | none => .refuse .noRecord

/-- READ(CLOCK) (R202). -/
def State.findClock (s : State) : Finding := .record (stampBytes s.now ++ byteFlag s.suspect)

/-- What a READ of a kind and a selector finds (R181, R209). -/
def State.find (s : State) (p : Port) (kind x y z : Byte) : Finding :=
  match kind.toNat with
  | 0 => if x ≠ 0x00 || y ≠ 0x00 then .refuse .badArg else s.findLanguage z.toNat
  | 1 => if x ≠ 0x00 || y ≠ 0x00 then .refuse .badArg else s.findChannel z.toNat
  | 2 => if x ≠ 0x00 || y ≠ 0x00 then .refuse .badArg else s.findBooth p z.toNat
  | 3 => if x ≠ 0x00 then .refuse .badArg else s.findReceiver (num2 y z)
  | 4 => s.findBySerial (num3 x y z)
  | 5 => s.findAccount (refOf x y z)
  | 6 => if x ≠ 0x00 || y ≠ 0x00 then .refuse .badArg else s.findTariff z.toNat
  | 7 => if x ≠ 0x00 || y ≠ 0x00 then .refuse .badArg else s.findFilter z.toNat
  | 8 => if z ≠ 0x00 then .refuse .badArg else s.findSlot x y
  | 9 => if y ≠ 0x00 || z ≠ 0x00 then .refuse .badArg else s.findReport x
  | 10 => s.findSettlement p x y z
  | 11 => s.findClock
  | _ => .refuse .badArg

/-- After the reply to a read of a booth is formed, the port's latches of it take the values of the moment (R100,
R101). -/
def State.afterFinding (s : State) (p : Port) (f : Finding) : State :=
  match f.booth with
  | none => s
  | some b => s.takeLatches p b

/-- READ(kind, index) (R181). -/
def doRead (p : Port) (payload : List Byte) (s : State) : State × Reply :=
  match payload with
  | [kind, x, y, z] =>
    let f := s.find p kind x y z
    (s.afterFinding p f, f.reply)
  | _ => refuse s .badArg

/-- READ (R181). -/
def execRead (p : Port) (tag : Byte) (payload : List Byte) (s : State) : Outcome :=
  .next (s.command p tag CommandName.read.code payload fun s =>
    s.answer .read p payload (doRead p payload))

-- Reservations (R188, R189)

/-- The kinds that can be reserved: LANGUAGE, CHANNEL, BOOTH, ACCOUNT, TARIFF (R187). -/
def reservableKind (kind : Byte) : Bool := [0x00, 0x01, 0x02, 0x05, 0x06].contains kind

/-- The port's reservation set by a finding, as it was where the finding sets none (R188). -/
def State.reserve (s : State) (p : Port) (f : Finding) : State :=
  match f.reserves with
  | none => s
  | some r => s.setPort p { s.port p with reservation := some r }

/-- READ_RESERVE(kind, index) (R188). -/
def doReadReserve (p : Port) (payload : List Byte) (s : State) : State × Reply :=
  match payload with
  | [kind, x, y, z] =>
    if !reservableKind kind then refuse s .badArg
    else
      let f := s.find p kind x y z
      ((s.afterFinding p f).reserve p f, f.reply)
  | _ => refuse s .badArg

/-- READ_RESERVE (R188). -/
def execReadReserve (p : Port) (tag : Byte) (payload : List Byte) (s : State) : Outcome :=
  .next (s.command p tag CommandName.readReserve.code payload fun s =>
    s.answer .readReserve p payload (doReadReserve p payload))

/-- RESERVE_DROP (R189). -/
def doReserveDrop (p : Port) (_payload : List Byte) (s : State) : State × Reply :=
  (s.dropReservation p, .bare .ok)

/-- RESERVE_DROP (R189). -/
def execReserveDrop (p : Port) (tag : Byte) (payload : List Byte) (s : State) : Outcome :=
  .next (s.command p tag CommandName.reserveDrop.code payload fun s =>
    s.answer .reserveDrop p payload (doReserveDrop p payload))

-- REPORT_CLEAR (R23, R44, R168)

/-- A channel's live-minutes cleared (R23). -/
def State.clearChannelMinutes (s : State) (c : Nat) : State :=
  s.setChannel c { s.channel c with liveMinutes := 0 }

/-- A seat's live-minutes cleared (R44). -/
def State.clearSeatMinutes (s : State) (x : Nat × Nat) : State :=
  s.setBooth x.1 ((s.booth x.1).setSeat x.2 { (s.booth x.1).seat x.2 with liveMinutes := 0 })

/-- REPORT_CLEAR(group) (R23, R44, R168). -/
def doReportClear (_p : Port) (payload : List Byte) (s : State) : State × Reply :=
  match payload with
  | [group] =>
    if group = 0x00 then ((List.range' 1 24).foldl State.clearChannelMinutes s, .bare .ok)
    else if group = 0x01 then (allSeats.foldl State.clearSeatMinutes s, .bare .ok)
    else if group = 0x02 then ((List.range 8).foldl (fun s k => s.setReport k .initial) s, .bare .ok)
    else refuse s .badArg
  | _ => refuse s .badArg

/-- REPORT_CLEAR (R168). -/
def execReportClear (p : Port) (tag : Byte) (payload : List Byte) (s : State) : Outcome :=
  .next (s.command p tag CommandName.reportClear.code payload fun s =>
    s.answer .reportClear p payload (doReportClear p payload))

end Sys2Proof.Machine
end

