-- ==== Sys2Proof/Machine/Racks.lean ====
section
/-!
DEFINITION. Chapter 6: the rack engines: the choice of the next dock transaction, the presence scan, idents, repairs,
issues and the slot commands.
-/
namespace Sys2Proof.Machine

-- Dock transactions (section 6.2)

/-- The slot a transaction is addressed to (R108). -/
def Transaction.slot : Transaction → Nat
  | .probe n | .ident n | .preset n _ _ | .markHired n | .markReturn n | .markRepair n => n

/-- The kind SLOT_FAULTED names (R109). -/
def Transaction.kind : Transaction → TransactionKind
  | .probe _ => .probe
  | .ident _ => .ident
  | .preset _ _ _ => .preset
  | .markHired _ | .markReturn _ | .markRepair _ => .mark

/-- A rack's bus written. -/
def State.setBus (s : State) (r : Rack) (b : Bus) : State := s.setRack r { s.rack r with bus := b }

/-- Arrival and return work, the lowest slot first (R110, 2). An IDENTIFYING slot that holds an ident is one whose ident
calls for a repair (R116). -/
def State.arrivalWork (s : State) (r : Rack) : Option Transaction :=
  (List.range 32).findSome? fun n =>
    let v := s.slot r n
    match v.state with
    | .identifying => some (if v.ident.isNone then .ident n else .markRepair n)
    | .returning => some (.markReturn n)
    | .empty | .arriving | .occupied | .issuing | .held | .departing | .faulted => none

/-- The next step of the issue at the head of the queue (R110, 3; R120): its PRESET, which reads the language's channel
as it stands now, channel 0 if it has none; or its MARK hired once the PRESET is done. -/
def State.issueWork (s : State) (r : Rack) : Option Transaction :=
  match (s.rack r).queue with
  | [] => none
  | q :: _ =>
    match q.preset with
    | none => some (.preset q.slot ((s.language q.language).channel.getD 0) (s.language q.language).code)
    | some _ => some (.markHired q.slot)

/-- The engine chooses its next transaction while its bus is idle (R110); a retry is chosen by `dockEnd`. The due mark of
a slot is cleared when its PROBE starts (R112). -/
def State.chooseWork (s : State) (r : Rack) : State :=
  match s.arrivalWork r with
  | some t => s.setBus r (.busy t)
  | none =>
    match s.issueWork r with
    | some t => s.setBus r (.busy t)
    | none =>
      match (s.rack r).due with
      | [] => s
      | n :: rest => s.setRack r { s.rack r with due := rest, bus := .busy (.probe n) }

/-- Work may have become due: a fitted rack whose bus is idle chooses its next transaction (R110, R111). -/
def State.kickRack (s : State) (r : Rack) : State :=
  if s.rackFitted r && (s.rack r).bus = .idle then s.chooseWork r else s

/-- A new scan round: every fitted slot in a probed state is due (R112). -/
def State.scanRound (s : State) (r : Rack) : State :=
  let due := (s.fittedSlots r).filter fun n => (s.slot r n).state.probed
  (s.setRack r { s.rack r with due := due }).kickRack r

/-- SCAN_ROUND(r): the rack's 250 ms timer begins a scan round (R112). -/
def execScanRound (r : Rack) (s : State) : Outcome := .next (s.hallEvent fun s => s.scanRound r)

-- Failures of issue work (R122)

/-- A slot's issue leaves the queue, from wherever it stands (R119). -/
def State.dropQueued (s : State) (r : Rack) (n : Nat) : State :=
  s.setRack r { s.rack r with queue := (s.rack r).queue.filter fun q => q.slot ≠ n }

/-- The issue of a slot that held `former` fails (R122); the slot itself is written by the caller. -/
def State.failIssue (s : State) (r : Rack) (n : Nat) (former : Slot) (cause : Cause) : State :=
  match former.issue, s.identReceiver former with
  | some work, some (i, v) =>
    ((((s.setReceiver i (some { v with state := .stock })).removeEntry work.account i).dropListener
      work.language).dropQueued r n).notifyRack r (.issueFailed n v.serial work.account work.language cause)
  | _, _ => s

/-- The work in hand on a slot that held `former` fails: an issue, or a return (R109, R114, R115). -/
def State.failWork (s : State) (r : Rack) (n : Nat) (former : Slot) (cause : Cause) : State :=
  match former.state with
  | .issuing => s.failIssue r n former cause
  | .returning | .held => s.tellAbandoned r n former cause
  | .empty | .arriving | .identifying | .occupied | .departing | .faulted => s

/-- A slot context with nothing but its state. -/
def Slot.only (state : SlotState) : Slot := { Slot.initial with state := state }

/-- A slot is faulted by a second LINE_FAULT (R109). -/
def State.faultSlot (s : State) (r : Rack) (n : Nat) (kind : TransactionKind) : State :=
  let former := s.slot r n
  ((s.setSlot r n (.only .faulted)).notifyRack r (.slotFaulted n kind)).failWork r n former .lineFault

/-- A NO_ANSWER ends an IDENT, PRESET or MARK: the work fails with cause REMOVED and the slot goes to DEPARTING without
an ident (R115). -/
def State.departSlot (s : State) (r : Rack) (n : Nat) : State :=
  let former := s.slot r n
  (s.setSlot r n (.only .departing)).failWork r n former .removed

/-- A departure is confirmed: the slot becomes EMPTY, work on it fails with cause REMOVED, and SLOT_LEFT follows with the
serial of the ident it held (R113, R114). -/
def State.slotLeft (s : State) (r : Rack) (n : Nat) : State :=
  let former := s.slot r n
  ((s.setSlot r n (.only .empty)).failWork r n former .removed).notifyRack r
    (.slotLeft n (former.ident.map (·.serial)))

-- The end of a transaction (R109, R110, R125)

/-- A transaction that the outcome answers ends. An outcome discarded in advance frees the bus alone (R125); a first
LINE_FAULT starts the transaction again with its data; a second one faults the slot (R109); otherwise the retry mark is
cleared, `own` takes the outcome, and the engine chooses its next transaction. An outcome of another transaction than the
one in flight does not occur and changes nothing. -/
def State.dockEnd (s : State) (r : Rack) (answers : Transaction → Bool) (lineFault : Bool)
    (own : Transaction → State → State) : State :=
  match (s.rack r).bus with
  | .idle => s
  | .draining t => if answers t then (s.setBus r .idle).kickRack r else s
  | .busy t =>
    let n := t.slot
    let v := s.slot r n
    if !answers t then s
    else if lineFault then
      (if v.retry then ((s.setBus r .idle).faultSlot r n t.kind).kickRack r
       else s.setSlot r n { v with retry := true })
    else (own t ((s.setBus r .idle).setSlot r n { v with retry := false })).kickRack r

-- The presence scan (R113, R114)

/-- A slot's state written, the rest of its context kept. -/
def State.setSlotState (s : State) (r : Rack) (n : Nat) (state : SlotState) : State :=
  s.setSlot r n { s.slot r n with state := state }

/-- A PROBE was answered (R113, R114). A slot that has left the probed states has the outcome discarded (R112). -/
def State.probeAnswer (s : State) (r : Rack) (n : Nat) : State :=
  let v := s.slot r n
  match v.state with
  | .empty => s.setSlotState r n .arriving
  | .arriving => s.setSlotState r n .identifying
  | .departing => s.setSlotState r n (if v.ident.isSome then .occupied else .identifying)
  | .issuing | .held => s.setSlot r n { v with miss := false }
  | .occupied | .identifying | .returning | .faulted => s

/-- A PROBE was missed (R113, R114). -/
def State.probeMiss (s : State) (r : Rack) (n : Nat) : State :=
  let v := s.slot r n
  match v.state with
  | .arriving => s.setSlotState r n .empty
  | .occupied => s.setSlotState r n .departing
  | .departing => s.slotLeft r n
  | .issuing | .held => if v.miss then s.slotLeft r n else s.setSlot r n { v with miss := true }
  | .empty | .identifying | .returning | .faulted => s

/-- PROBE_OUTCOME(r, slot, outcome) (R113, R114). -/
def execProbeOutcome (r : Rack) (n : Nat) (outcome : DockOutcome) (s : State) : Outcome :=
  .next (s.hallEvent fun s => s.dockEnd r (fun t => t = .probe n) (outcome = .lineFault) fun _ s =>
    if outcome = .done then s.probeAnswer r n else s.probeMiss r n)

-- Ident (R116)

/-- SLOT_ARRIVED for a slot's ident (R116). -/
def State.slotArrived (s : State) (r : Rack) (n i : Nat) (v : Receiver) (ident : Ident) : State :=
  s.notifyRack r (.slotArrived n ident.serial i v.state ident.battery)

/-- FOREIGN_UNIT for a slot's ident (R116). -/
def State.foreignUnit (s : State) (r : Rack) (n : Nat) (ident : Ident) : State :=
  s.notifyRack r (.foreignUnit n ident.serial ident.battery)

/-- The slot becomes OCCUPIED with its ident. -/
def State.occupy (s : State) (r : Rack) (n : Nat) (ident : Ident) : State :=
  s.setSlot r n { s.slot r n with state := .occupied, ident := some ident }

/-- The ISSUED rows of R116: the unit is foreign while its return is in hand in another slot; otherwise its return
begins with the present hall minute and day. -/
def State.identIssued (s : State) (r : Rack) (n : Nat) (ident : Ident) : State :=
  if s.returnInHand ident.serial then (s.occupy r n ident).foreignUnit r n ident
  else s.setSlot r n { s.slot r n with state := .returning, ident := some ident, returned := some s.now }

/-- An IDENT of an IDENTIFYING slot is DONE (R116). -/
def State.identDone (s : State) (r : Rack) (n : Nat) (ident : Ident) : State :=
  match s.bySerial ident.serial with
  | none => (s.occupy r n ident).foreignUnit r n ident
  | some (i, former) =>
    let v := { former with battery := ident.battery }
    let t := s.setReceiver i (some v)
    match v.state with
    | .stock | .service =>
      if ident.mark = .stock then (t.occupy r n ident).slotArrived r n i v ident
      else t.setSlot r n { t.slot r n with ident := some ident }
    | .issued _ _ _ _ => t.identIssued r n ident
    | .lost _ _ => t.setSlot r n { t.slot r n with ident := some ident }
    | .pending _ _ _ => (t.occupy r n ident).foreignUnit r n ident

/-- IDENT_OUTCOME(r, slot, outcome) (R116, R115). -/
def execIdentOutcome (r : Rack) (n : Nat) (outcome : IdentOutcome) (s : State) : Outcome :=
  .next (s.hallEvent fun s => s.dockEnd r (fun t => t = .ident n) (outcome = .lineFault) fun _ s =>
    match outcome with
    | .done ident => s.identDone r n ident
    | .noAnswer | .lineFault => s.departSlot r n)

-- Repairs (R117)

/-- A MARK stock of an IDENTIFYING slot is DONE: the row for the record's present state (R117). A record found ISSUED is
handled as R116 handles one (DEDUCED, log entry 27). -/
def State.repairDone (s : State) (r : Rack) (n : Nat) (ident : Ident) : State :=
  let stocked : Ident := { ident with mark := .stock }
  match s.bySerial ident.serial with
  | none => (s.occupy r n stocked).foreignUnit r n stocked
  | some (i, v) =>
    match v.state with
    | .lost ref _ =>
      let t := (s.setReceiver i (some { v with state := .stock })).occupy r n ident
      let found : Notice := .unitFound r n v.serial i ref
      (t.notifyRack r found).notifyOps found
    | .stock | .service => (s.occupy r n stocked).slotArrived r n i v stocked
    | .pending _ _ _ => (s.occupy r n stocked).foreignUnit r n stocked
    | .issued _ _ _ _ => s.identIssued r n stocked

/-- REPAIR_MARK_OUTCOME(r, slot, outcome) (R117, R115). -/
def execRepairMarkOutcome (r : Rack) (n : Nat) (outcome : DockOutcome) (s : State) : Outcome :=
  .next (s.hallEvent fun s => s.dockEnd r (fun t => t = .markRepair n) (outcome = .lineFault) fun _ s =>
    match outcome, (s.slot r n).ident with
    | .done, some ident => s.repairDone r n ident
    | _, _ => s.departSlot r n)

/-- RETURN_MARK_OUTCOME(r, slot, outcome) (R150). -/
def execReturnMarkOutcome (r : Rack) (n : Nat) (outcome : DockOutcome) (s : State) : Outcome :=
  .next (s.hallEvent fun s => s.dockEnd r (fun t => t = .markReturn n) (outcome = .lineFault) fun _ s =>
    if outcome = .done then s.returnMarked r n else s.departSlot r n)

-- Issue (section 6.5)

/-- The PRESET of the head of the queue is DONE (R120). -/
def State.presetDone (s : State) (r : Rack) (channel : Nat) : State :=
  match (s.rack r).queue with
  | [] => s
  | q :: rest => s.setRack r { s.rack r with queue := { q with preset := some channel } :: rest }

/-- PRESET_OUTCOME(r, outcome): the head's PRESET ends (R120). -/
def execPresetOutcome (r : Rack) (outcome : DockOutcome) (s : State) : Outcome :=
  .next (s.hallEvent fun s =>
    s.dockEnd r (fun t => t.kind = .preset) (outcome = .lineFault) fun t s =>
      match outcome, t with
      | .done, .preset _ channel _ => s.presetDone r channel
      | _, _ => s.departSlot r t.slot)

/-- The slot of a completed issue (R121, step 4). -/
def Slot.issued (v : Slot) : Slot :=
  { v with
    state := .occupied
    issue := none
    miss := false
    ident := v.ident.map fun i => { i with mark := .hired } }

/-- The head issue completes (R121). -/
def State.completeIssue (s : State) (r : Rack) : State :=
  match (s.rack r).queue with
  | [] => s
  | q :: rest =>
    let slot := s.slot r q.slot
    match s.identReceiver slot with
    | none => s
    | some (i, v) =>
      let out : Receiver :=
        { v with state := .issued q.account q.language r s.now, issues := satAdd Config.top16 v.issues 1 }
      let t := ((s.setReceiver i (some out)).holdEntry q.account i).setSlot r q.slot slot.issued
      (t.setRack r { t.rack r with queue := rest }).notifyRack r
        (.issueDone q.slot v.serial q.account q.language (q.preset.getD 0))

/-- MARK_HIRED_OUTCOME(r, outcome): the head's MARK hired ends (R121). -/
def execMarkHiredOutcome (r : Rack) (outcome : DockOutcome) (s : State) : Outcome :=
  .next (s.hallEvent fun s =>
    s.dockEnd r (fun t => t = .markHired t.slot) (outcome = .lineFault) fun t s =>
      if outcome = .done then s.completeIssue r else s.departSlot r t.slot)

/-- An ISSUE that passes R118 is accepted (R119). -/
def State.acceptIssue (s : State) (r : Rack) (ref : AccountRef) (o : OpenAccount) (n l i : Nat) (v : Receiver) : State :=
  let a := s.setReceiver i (some { v with state := .pending ref l r })
  let b := (a.setOpen ref { o with entries := o.entries ++ [⟨i, false⟩] }).addListener l
  let c := b.setSlot r n { b.slot r n with state := .issuing, issue := some ⟨ref, l⟩, miss := false }
  (c.setRack r { c.rack r with queue := (c.rack r).queue ++ [⟨n, ref, l, none⟩] }).kickRack r

/-- The receiver an ISSUE on a slot would issue: that of an OCCUPIED slot whose serial names a STOCK record (R118, check
4). -/
def State.issuable (s : State) (v : Slot) : Option (Nat × Receiver × Ident) :=
  match v.state, v.ident, s.identReceiver v with
  | .occupied, some ident, some (i, w) => if w.state = .stock then some (i, w, ident) else none
  | _, _, _ => none

/-- ISSUE(ref, slot, L) (R118, R119). -/
def doIssue (p : Port) (payload : List Byte) (s : State) : State × Reply :=
  match payload with
  | [i1, i2, g, slot, lang] =>
    let ref := refOf i1 i2 g
    let l := lang.toNat
    match s.ownSlot p slot with
    | none => refuse s .badArg
    | some r =>
      if 1023 < ref.index || 31 < l then refuse s .badArg
      else
        match s.openAccount ref with
        | none => refuse s .noRecord
        | some o =>
          if o.snapshot.issueLimit ≤ o.entries.length then refuse s .limit
          else
            match s.issuable (s.slot r slot.toNat) with
            | none => refuse s .wrongState
            | some (i, v, ident) =>
              if ident.battery < s.profile.batteryThreshold then refuse s .lowBattery
              else if !(s.language l).defined || (s.language l).channel.isNone then refuse s .noChannel
              else if Config.queueLimit ≤ (s.rack r).queue.length then refuse s .queueFull
              else (s.acceptIssue r ref o slot.toNat l i v, .bare .accepted)
  | _ => refuse s .badArg

/-- ISSUE (R119). -/
def execIssue (p : Port) (tag : Byte) (payload : List Byte) (s : State) : Outcome :=
  .next (s.command p tag CommandName.issue.code payload fun s =>
    s.answer .issue p payload (doIssue p payload))

-- Slot commands (section 6.6)

/-- SLOT_CLEAR(slot) (R124). The slot is first due for a probe at the next scan round. -/
def doSlotClear (p : Port) (payload : List Byte) (s : State) : State × Reply :=
  match payload with
  | [slot] =>
    match s.ownSlot p slot with
    | none => refuse s .badArg
    | some r =>
      if (s.slot r slot.toNat).state ≠ .faulted then refuse s .wrongState
      else (s.setSlot r slot.toNat .initial, .bare .ok)
  | _ => refuse s .badArg

/-- SLOT_CLEAR (R124). -/
def execSlotClear (p : Port) (tag : Byte) (payload : List Byte) (s : State) : Outcome :=
  .next (s.command p tag CommandName.slotClear.code payload fun s =>
    s.answer .slotClear p payload (doSlotClear p payload))

/-- A transaction in flight is ended: its outcome, when it comes, is discarded (R125, step 1). -/
def Bus.drained : Bus → Bus
  | .idle => .idle
  | .busy t | .draining t => .draining t

/-- The issue of a queue entry fails with cause RESET (R125, step 2). -/
def State.resetIssue (r : Rack) (s : State) (q : QueuedIssue) : State :=
  s.failIssue r q.slot (s.slot r q.slot) .reset

/-- A rack engine is reset (R125). -/
def State.rackReset (s : State) (r : Rack) : State :=
  let failed := (s.rack r).queue.foldl (State.resetIssue r) s
  (failed.setRack r ⟨[], [], s.fittedSlots r, (s.rack r).bus.drained⟩).kickRack r

/-- RACK_RESET (R125). -/
def doRackReset (p : Port) (_payload : List Byte) (s : State) : State × Reply :=
  match ownRack p with
  | none => refuse s .denied
  | some r => if !s.rackFitted r then refuse s .wrongState else (s.rackReset r, .bare .ok)

/-- RACK_RESET (R125). -/
def execRackReset (p : Port) (tag : Byte) (payload : List Byte) (s : State) : Outcome :=
  .next (s.command p tag CommandName.rackReset.code payload fun s =>
    s.answer .rackReset p payload (doRackReset p payload))

end Sys2Proof.Machine
end

