-- ==== Sys2Proof/Machine/Starts.lean ====
section
/-!
DEFINITION. Sections 11.2 to 11.4: the installation profile and its store, INSTALL, and the starts.
-/
namespace Sys2Proof.Machine

-- The profile (R203, R208)

/-- The values of the 13 fields that 15 stored bytes carry, in the order of R203 (R208). -/
def profileFields : List Byte → Option (List Nat)
  | [b0, b1, b2, b3, b4, b5, h1, h2, b7, b8, s1, s2, b10, b11, b12] =>
    some [b0.toNat, b1.toNat, b2.toNat, b3.toNat, b4.toNat, b5.toNat, num2 h1 h2, b7.toNat, b8.toNat, num2 s1 s2,
      b10.toNat, b11.toNat, b12.toNat]
  | _ => none

/-- The ranges of the 13 fields (R203). The last two are the floor-fill default and the port rate: a stored value other
than their two codes is taken as on, and as 460,800 bit/s, which is the nearer limit 1. -/
def profileRanges : List (Nat × Nat) :=
  [(1, 16), (2, 3), (4, 24), (1, 2), (8, 32), (5, 60), (30, 600), (10, 90), (0, 100), (0, 65535), (1, 2), (0, 1),
   (0, 1)]

/-- A value outside its range is clamped to the nearer limit (R203). -/
def clampField (v : Nat) (range : Nat × Nat) : Nat := max range.1 (min range.2 v)

/-- The clamped fields (R203). -/
def clampFields (fields : List Nat) : List Nat := List.zipWith clampField fields profileRanges

/-- The profile that 13 values in their ranges stand for (R203). -/
def profileOf : List Nat → Profile
  | [a, b, c, d, e, f, g, h, i, j, k, l, m] => ⟨a, b, c, d, e, f, g, h, i, j, k, decide (l ≠ 0), m⟩
  | _ => .default

/-- A profile as 15 bytes (R208). -/
def Profile.bytes (v : Profile) : List Byte :=
  byte1 v.booths ++ byte1 v.seatCap ++ byte1 v.channels ++ byte1 v.racks ++ byte1 v.slots ++ byte1 v.handoverWindow
    ++ byte2 v.redirectHold ++ byte1 v.turnLimit ++ byte1 v.batteryThreshold ++ byte2 v.serviceInterval
    ++ byte1 v.relayDepth ++ byteFlag v.floorFill ++ byte1 v.portRate

/-- The fields a store holds, none when it is blank: its check value does not match its fields (R203). -/
def storedFields (image : StoreImage) : Option (List Nat) :=
  if crc16 image.bytes = image.check then profileFields image.bytes else none

/-- The profile in force formed from a store, and whether any field was clamped (R203). -/
def profileInForce (image : StoreImage) : Profile × Bool :=
  match storedFields image with
  | none => (.default, false)
  | some fields => (profileOf (clampFields fields), decide (clampFields fields ≠ fields))

/-- The list of the fields of 15 bytes that a start will clamp: bit n for field n from 0 (R205, section 12.4). -/
def clampMask (bytes : List Byte) : Nat :=
  match profileFields bytes with
  | none => 0
  | some fields =>
    ((List.range 13).map fun n =>
      if (clampFields fields)[n]? = fields[n]? then 0 else 2 ^ n).sum

/-- PROFILE_READ (R205): the stored fields (the defaults for a blank store), whether the store is blank, the profile in
force. -/
def doProfileRead (_p : Port) (_payload : List Byte) (s : State) : State × Reply :=
  let blank := (storedFields s.store).isNone
  (s, ⟨.ok, (if blank then Profile.default.bytes else s.store.bytes) ++ byteFlag blank ++ s.profile.bytes⟩)

/-- PROFILE_READ (R205). -/
def execProfileRead (p : Port) (tag : Byte) (payload : List Byte) (s : State) : Outcome :=
  .next (s.command p tag CommandName.profileRead.code payload fun s =>
    s.answer .profileRead p payload (doProfileRead p payload))

/-- PROFILE_WRITE(profile) (R205): the fields are written with a new check value and read back. -/
def doProfileWrite (_p : Port) (payload : List Byte) (s : State) : State × Reply :=
  if s.run = .install then
    let written : StoreImage := ⟨payload, crc16 payload⟩
    let found := s.storeFailure.getD written
    ({ s with store := found },
      if found = written then ⟨.ok, byte2 (clampMask payload)⟩ else ⟨.wrongState, byte1 Cause.storeFault.code⟩)
  else refuse s .wrongState

/-- PROFILE_WRITE (R205); `failure` is what the store will hold at the read-back if it does not take the write. -/
def execProfileWrite (p : Port) (tag : Byte) (payload : List Byte) (failure : Option StoreImage) (s : State) : Outcome :=
  .next ({ s with storeFailure := failure }.command p tag CommandName.profileWrite.code payload fun s =>
    s.answer .profileWrite p payload (doProfileWrite p payload))

-- Starts (R206)

/-- The store is read and the profile in force formed (R203, R206). -/
def State.readProfile (s : State) : State :=
  { s with profile := (profileInForce s.store).1, clamped := (profileInForce s.store).2 }

/-- Every retained record takes its cold-start value (R5, R24, R25, R47, R127, R132, R144, R149, R170, R198). -/
def State.coldRecords (s : State) : State :=
  { s with
    languages := []
    channels := (List.range' 1 24).foldl (fun t c => tabSet .initial t c ⟨.free, s.profile.floorFill, 0⟩) []
    booths := (List.range' 1 16).foldl
      (fun t b => tabSet .initial t b { Booth.initial with config := .initial s.profile.turnLimit }) []
    receivers := []
    accounts := []
    tariffs := []
    filters := []
    bufferA := none
    bufferB := none
    reports := []
    minute := 0
    day := 0 }

/-- A warm start at channel `c` (R24): LIVE becomes MAPPED, REDIRECT becomes FREE, and a channel above the channels fitted
that is MAPPED becomes FREE with its language's channel field none. -/
def State.warmChannel (s : State) (c : Nat) : State :=
  match (s.channel c).state with
  | .free => s
  | .redirect _ _ => s.setChannelState c .free
  | .mapped l | .live l =>
    if s.profile.channels < c then (s.setChannelState c .free).setLanguageChannel l none
    else s.setChannelState c (.mapped l)

/-- A warm start at language `l`: its owner field is none (R5). -/
def State.warmLanguage (s : State) (l : Nat) : State := s.setLanguage l { s.language l with owner := none }

/-- A booth record after a warm start: the configuration and the seat live-minutes are kept (R47, R86). -/
def Booth.warm (v : Booth) : Booth :=
  let seat (n : Nat) (w : Booth) : Booth := w.setSeat n { Seat.initial with liveMinutes := (v.seat n).liveMinutes }
  seat 3 (seat 2 (seat 1 { Booth.initial with config := v.config }))

/-- A warm start at booth `b` (R47, R86). -/
def State.warmBooth (s : State) (b : Nat) : State := s.setBooth b (s.booth b).warm

/-- A receiver after a warm start: a PENDING record becomes STOCK (R127). -/
def Receiver.warm (v : Receiver) : Receiver :=
  match v.state with
  | .pending _ _ _ => { v with state := .stock }
  | .stock | .issued _ _ _ _ | .lost _ _ | .service => v

/-- A PENDING record gives up its language's listener (R127). -/
def State.warmListener (s : State) (v : Option Receiver) : State :=
  match v with
  | none => s
  | some w =>
    match w.state with
    | .pending _ l _ => s.dropListener l
    | .stock | .issued _ _ _ _ | .lost _ _ | .service => s

/-- An account after a warm start: its PENDING entries are removed (R149). -/
def Account.warm (a : Account) : Account :=
  { a with account := a.account.map fun o => { o with entries := o.entries.filter (·.held) } }

/-- The retained records brought into line by a warm start (R5, R24, R47, R127, R149). -/
def State.warmRecords (s : State) : State :=
  let issues := s.receivers.foldl (fun t e => t.warmListener e.2) s
  let pool :=
    { issues with
      receivers := issues.receivers.map fun e => (e.1, e.2.map Receiver.warm)
      accounts := issues.accounts.map fun e => (e.1, e.2.warm) }
  let owners := (List.range 32).foldl State.warmLanguage pool
  let channels := (List.range' 1 24).foldl State.warmChannel owners
  (List.range' 1 16).foldl State.warmBooth channels

/-- Every line is silent and the ports are as after a start (R186, R204). -/
def State.quiet (s : State) : State :=
  { s with
    opsPort := .start s.opsPort.hold
    deskAPort := .start s.deskAPort.hold
    deskBPort := .start s.deskBPort.hold
    rackA := { s.rackA with bus := .idle }
    rackB := { s.rackB with bus := .idle }
    feed := { s.feed with sending := false }
    line := none }

/-- A rack engine after a start, its first scan round due (R112, R127). -/
def State.startRack (s : State) (r : Rack) : State := (s.setRack r ⟨[], [], s.fittedSlots r, .idle⟩).kickRack r

/-- The start kind the retention marker chooses (R206). -/
def State.nextKind (s : State) : StartKind := if s.marker then .warm else .cold

/-- CLOCK_SUSPECT is formed by a warm start (R202). -/
def State.tellSuspect (s : State) : State :=
  match s.startKind with
  | .cold => s
  | .warm => s.notifyOps (.clockSuspect s.now .warm)

/-- A hall start (R206). -/
def State.hallStart (s : State) : State :=
  let kind := s.nextKind
  let read := s.readProfile
  let records := match kind with | .cold => read.coldRecords | .warm => read.warmRecords
  let working :=
    { records.quiet with
      run := .hall
      startKind := kind
      marker := true
      suspect := true
      second := 0 }
  ((working.tellSuspect.feedStart).startRack .a).startRack .b

/-- The part enters INSTALL (R204). -/
def State.enterInstall (s : State) : State := { s.readProfile.quiet with run := .install }

/-- POWER_UP(strap): INSTALL with the strap tied, a hall start with it open (R204, R206). -/
def execPowerUp (strap : Bool) (s : State) : Outcome := .next (if strap then s.enterInstall else s.hallStart)

/-- RESETN: a hall start, the strap not sampled (R204, R206). Without power it does nothing. -/
def execResetn (s : State) : Outcome := .next (if s.run = .off then s else s.hallStart)

/-- POWER_DOWN: the part stops (R198, R204); what retained memory and the profile store hold stays. -/
def execPowerDown (s : State) : Outcome := .next { s.quiet with run := .off }

/-- A booth record with what retained memory holds of it written over (R206). -/
def Booth.withRetained (v : Booth) (r : RetainedBooth) : Booth :=
  let seat (n : Nat) (w : Booth) : Booth := w.setSeat n { w.seat n with liveMinutes := tabGet 0 r.minutes n }
  seat 3 (seat 2 (seat 1 { v with config := r.config }))

/-- Retained memory holds `r` and its marker is gone (R206). -/
def State.withRetained (s : State) (r : Retained) : State :=
  { s with
    marker := false
    languages := r.languages
    channels := r.channels
    booths := (List.range' 1 16).foldl
      (fun t b => tabSet .initial t b ((s.booth b).withRetained (tabGet ⟨.initial 30, []⟩ r.booths b))) s.booths
    receivers := r.receivers
    accounts := r.accounts
    tariffs := r.tariffs
    filters := r.filters
    bufferA := r.bufferA
    bufferB := r.bufferB
    reports := r.reports
    minute := r.minute
    day := r.day
    suspect := r.suspect }

/-- RETAINED_MEMORY_LOSS: the retention marker and the retained records are lost; what the records read as until the next
cold start is a free value (R206, log entry 4). -/
def execRetainedMemoryLoss (s : State) : Outcome :=
  .next ({ s.withRetained (Config.lostMemory s.freeCount) with freeCount := s.freeCount + 1 }.feedWork)

end Sys2Proof.Machine
end

