-- ==== Sys2Proof/Machine/Ports.lean ====
section
/-!
DEFINITION. Chapter 9: the framer, the receive buffer, the taking of received commands, and the transmit lines.
-/
namespace Sys2Proof.Machine

-- Commands by name

/-- A command's own rule. -/
def perform (name : CommandName) (p : Port) (payload : List Byte) : State → State × Reply :=
  match name with
  | .status => doStatus p payload
  | .read => doRead p payload
  | .readReserve => doReadReserve p payload
  | .reserveDrop => doReserveDrop p payload
  | .langDefine => doLangDefine p payload
  | .langRemove => doLangRemove p payload
  | .chanMap => doChanMap p payload
  | .chanUnmap => doChanUnmap p payload
  | .chanMove => doChanMove p payload
  | .chanFloorfill => doChanFloorfill p payload
  | .boothConfig => doBoothConfig p payload
  | .boothInput => doBoothInput p payload
  | .seatForceTake => doSeatForceTake p payload
  | .seatForceOff => doSeatForceOff p payload
  | .tariffWrite => doTariffWrite p payload
  | .filterWrite => doFilterWrite p payload
  | .clockSet => doClockSet p payload
  | .dayClose => doDayClose p payload
  | .receiverEnroll => doReceiverEnroll p payload
  | .receiverRetire => doReceiverRetire p payload
  | .receiverService => doReceiverService p payload
  | .reportClear => doReportClear p payload
  | .profileRead => doProfileRead p payload
  | .profileWrite => doProfileWrite p payload
  | .accountOpen => doAccountOpen p payload
  | .accountFind => doAccountFind p payload
  | .accountClose => doAccountClose p payload
  | .issue => doIssue p payload
  | .settlementTake => doSettlementTake p payload
  | .slotClear => doSlotClear p payload
  | .rackReset => doRackReset p payload
  | .enrollSlot => doEnrollSlot p payload
  | .accountAdjust => doAccountAdjust p payload
  | .lossDeclare => doLossDeclare p payload

/-- A command taken from the receive buffer is carried out by its CODE (R177). -/
def State.perform (s : State) (p : Port) (code : Byte) (payload : List Byte) : State × Reply :=
  match commandOf code with
  | none => s.answerUnknown
  | some name => s.answer name p payload (Sys2Proof.Machine.perform name p payload)

/-- The oldest received command is taken when none is in hand (R176). Its stored bytes are LEN, TYPE, TAG, CODE, the
payload and the CRC. -/
def State.takeNext (s : State) (p : Port) : State :=
  let q := s.port p
  match q.inHand, q.received with
  | none, (_ :: _ :: tag :: code :: body) :: rest =>
    (s.setPort p { q with received := rest }).take p tag code fun s => s.perform p code body.dropLast.dropLast
  | _, _ => s

-- The framer (R173 to R175)

/-- A complete frame's stored bytes pass both checks of R174: the CRC, and the TYPE COMMAND. A spoilt frame, of which a
byte was dropped (R175) or had no stop bit (R171), fails. -/
def frameGood (stored : List Byte) (spoilt : Bool) : Bool :=
  let body := stored.dropLast.dropLast
  !spoilt && body ++ crcBytes (crc16 body) = stored && body[1]? = some 0x01

/-- A byte of the frame being collected, stored if the receive buffer has room, dropped if not (R173, R175). -/
def PortState.storeByte (q : PortState) (remaining : Nat) (stored : List Byte) (spoilt : Bool) (b : Byte) : PortState :=
  if q.buffered < Config.bufferBytes then { q with framer := .collecting remaining (stored ++ [b]) spoilt }
  else { q with framer := .collecting remaining stored true }

/-- The frame being collected is checked once its last byte has come, and the framer returns to HUNTING (R173, R174). -/
def PortState.endFrame (q : PortState) : PortState :=
  match q.framer with
  | .collecting 0 stored spoilt =>
    if frameGood stored spoilt then { q with framer := .hunting, received := q.received ++ [stored] }
    else { q with framer := .hunting, frameError := true }
  | .collecting (_ + 1) _ _ | .hunting | .expectLen _ => q

/-- The framer takes one byte of the receive line with the value sampled (R173); a byte with a missing stop bit spoils its
frame (R171). -/
def PortState.takeByte (q : PortState) (b : LineByte) : PortState :=
  match q.framer with
  | .hunting => if b.value = 0xA5 then { q with framer := .expectLen !b.stop } else q
  | .expectLen spoilt =>
    if b.value.toNat < 3 || 253 < b.value.toNat then { q with framer := .hunting, frameError := true }
    else q.storeByte (b.value.toNat + 2) [] (spoilt || !b.stop) b.value
  | .collecting remaining stored spoilt => (q.storeByte (remaining - 1) stored (spoilt || !b.stop) b.value).endFrame

/-- One byte comes on a port's receive line; a command it completes is taken if none is in hand (R173, R176). -/
def State.receiveByte (p : Port) (s : State) (b : LineByte) : State :=
  (s.setPort p ((s.port p).takeByte b)).takeNext p

/-- The level of a port's hold input, as it stands (R185). -/
def State.setHold (s : State) (p : Port) (hold : Bool) : State := s.setPort p { s.port p with hold := hold }

/-- The port engine chooses its next frame (R185). -/
def State.choose (s : State) (p : Port) : State := s.setPort p (s.port p).chooseFrame

/-- FRAME_RECEIVED(p, hold, bytes): bytes come on a port's receive line without a gap (R173, R174). -/
def execFrameReceived (p : Port) (hold : Bool) (bytes : List LineByte) (s : State) : Outcome :=
  .next (
    let held := s.setHold p hold
    if s.run = .off then held else bytes.foldl (State.receiveByte p) (held.choose p))

/-- FRAME_TIMEOUT(p): the frame being collected is timed out (R173). -/
def execFrameTimeout (p : Port) (s : State) : Outcome :=
  .next (
    if s.run = .off || (s.port p).framer = .hunting then s
    else s.setPort p { s.port p with framer := .hunting, frameError := true })

/-- The frame on the transmit line ends: after a reply the command is no longer in hand and the next one is taken
(R176). -/
def State.endFrame (s : State) (p : Port) : State :=
  let q := s.port p
  match q.sending with
  | none => s
  | some (.notice _ _) => s.setPort p { q with sending := none }
  | some (.reply _ _ _) => (s.setPort p { q with sending := none, inHand := none }).takeNext p

/-- FRAME_SENT(p, hold): the transmitter ends a frame and the next is chosen by the hold input (R185). -/
def execFrameSent (p : Port) (hold : Bool) (s : State) : Outcome :=
  .next (
    let held := s.setHold p hold
    if s.run = .off then held else (held.endFrame p).choose p)

/-- HOLD_RELEASED(p): an idle transmitter may begin sending queued notices (R185). -/
def execHoldReleased (p : Port) (s : State) : Outcome :=
  .next (
    let held := s.setHold p false
    if s.run = .off then held else held.choose p)

/-- UNKNOWN_COMMAND (R177). A CODE that does name a command is carried out as that command. -/
def execUnknownCommand (p : Port) (tag code : Byte) (payload : List Byte) (s : State) : Outcome :=
  .next (s.command p tag code payload fun s => s.perform p code payload)

end Sys2Proof.Machine
end

