-- ==== Sys2Proof/Machine/Dispatch.lean ====
section
/-!
DEFINITION. The meaning of every command and event of the operation table, one arm each.
-/
namespace Sys2Proof.Machine

/-- What a command or event does to everything but the queue of waiting commands. -/
def exec (i : Instr) (s : State) : Host.Outcome State Fault Refusal :=
  match i with
  | .status p tag payload => Sys2Proof.Machine.execStatus p tag payload s
  | .read p tag payload => Sys2Proof.Machine.execRead p tag payload s
  | .readReserve p tag payload => Sys2Proof.Machine.execReadReserve p tag payload s
  | .reserveDrop p tag payload => Sys2Proof.Machine.execReserveDrop p tag payload s
  | .langDefine p tag payload => Sys2Proof.Machine.execLangDefine p tag payload s
  | .langRemove p tag payload => Sys2Proof.Machine.execLangRemove p tag payload s
  | .chanMap p tag payload => Sys2Proof.Machine.execChanMap p tag payload s
  | .chanUnmap p tag payload => Sys2Proof.Machine.execChanUnmap p tag payload s
  | .chanMove p tag payload => Sys2Proof.Machine.execChanMove p tag payload s
  | .chanFloorfill p tag payload => Sys2Proof.Machine.execChanFloorfill p tag payload s
  | .boothConfig p tag payload => Sys2Proof.Machine.execBoothConfig p tag payload s
  | .boothInput p tag payload => Sys2Proof.Machine.execBoothInput p tag payload s
  | .seatForceTake p tag payload => Sys2Proof.Machine.execSeatForceTake p tag payload s
  | .seatForceOff p tag payload => Sys2Proof.Machine.execSeatForceOff p tag payload s
  | .tariffWrite p tag payload => Sys2Proof.Machine.execTariffWrite p tag payload s
  | .filterWrite p tag payload => Sys2Proof.Machine.execFilterWrite p tag payload s
  | .clockSet p tag payload => Sys2Proof.Machine.execClockSet p tag payload s
  | .dayClose p tag payload => Sys2Proof.Machine.execDayClose p tag payload s
  | .receiverEnroll p tag payload => Sys2Proof.Machine.execReceiverEnroll p tag payload s
  | .receiverRetire p tag payload => Sys2Proof.Machine.execReceiverRetire p tag payload s
  | .receiverService p tag payload => Sys2Proof.Machine.execReceiverService p tag payload s
  | .reportClear p tag payload => Sys2Proof.Machine.execReportClear p tag payload s
  | .profileRead p tag payload => Sys2Proof.Machine.execProfileRead p tag payload s
  | .profileWrite p tag payload failure => Sys2Proof.Machine.execProfileWrite p tag payload failure s
  | .accountOpen p tag payload => Sys2Proof.Machine.execAccountOpen p tag payload s
  | .accountFind p tag payload => Sys2Proof.Machine.execAccountFind p tag payload s
  | .accountClose p tag payload => Sys2Proof.Machine.execAccountClose p tag payload s
  | .issue p tag payload => Sys2Proof.Machine.execIssue p tag payload s
  | .settlementTake p tag payload => Sys2Proof.Machine.execSettlementTake p tag payload s
  | .slotClear p tag payload => Sys2Proof.Machine.execSlotClear p tag payload s
  | .rackReset p tag payload => Sys2Proof.Machine.execRackReset p tag payload s
  | .enrollSlot p tag payload => Sys2Proof.Machine.execEnrollSlot p tag payload s
  | .accountAdjust p tag payload => Sys2Proof.Machine.execAccountAdjust p tag payload s
  | .lossDeclare p tag payload => Sys2Proof.Machine.execLossDeclare p tag payload s
  | .unknownCommand p tag code payload => Sys2Proof.Machine.execUnknownCommand p tag code payload s
  | .frameReceived p hold bytes => Sys2Proof.Machine.execFrameReceived p hold bytes s
  | .frameTimeout p => Sys2Proof.Machine.execFrameTimeout p s
  | .frameSent p hold => Sys2Proof.Machine.execFrameSent p hold s
  | .holdReleased p => Sys2Proof.Machine.execHoldReleased p s
  | .boothSlot booth => Sys2Proof.Machine.execBoothSlot booth s
  | .advertise booth advert => Sys2Proof.Machine.execAdvertise booth advert s
  | .grantAck booth taken => Sys2Proof.Machine.execGrantAck booth taken s
  | .statusReply booth sequence events => Sys2Proof.Machine.execStatusReply booth sequence events s
  | .slotUnanswered booth => Sys2Proof.Machine.execSlotUnanswered booth s
  | .faultWaitEnd booth => Sys2Proof.Machine.execFaultWaitEnd booth s
  | .mic booth seat => Sys2Proof.Machine.execMic booth seat s
  | .muteDown booth seat => Sys2Proof.Machine.execMuteDown booth seat s
  | .muteUp booth seat => Sys2Proof.Machine.execMuteUp booth seat s
  | .outputA booth => Sys2Proof.Machine.execOutputA booth s
  | .outputB booth => Sys2Proof.Machine.execOutputB booth s
  | .floorSel booth => Sys2Proof.Machine.execFloorSel booth s
  | .relaySel booth source => Sys2Proof.Machine.execRelaySel booth source s
  | .previous booth => Sys2Proof.Machine.execPrevious booth s
  | .flashTimerExpiry booth lamp => Sys2Proof.Machine.execFlashTimerExpiry booth lamp s
  | .secondEvent => Sys2Proof.Machine.execSecondEvent s
  | .minuteTick => Sys2Proof.Machine.execMinuteTick s
  | .redirectExpiry channel => Sys2Proof.Machine.execRedirectExpiry channel s
  | .handoverLapse booth => Sys2Proof.Machine.execHandoverLapse booth s
  | .feedRepeat => Sys2Proof.Machine.execFeedRepeat s
  | .feedTransmissionEnd => Sys2Proof.Machine.execFeedTransmissionEnd s
  | .scanRound r => Sys2Proof.Machine.execScanRound r s
  | .probeOutcome r slot outcome => Sys2Proof.Machine.execProbeOutcome r slot outcome s
  | .identOutcome r slot outcome => Sys2Proof.Machine.execIdentOutcome r slot outcome s
  | .presetOutcome r outcome => Sys2Proof.Machine.execPresetOutcome r outcome s
  | .markHiredOutcome r outcome => Sys2Proof.Machine.execMarkHiredOutcome r outcome s
  | .returnMarkOutcome r slot outcome => Sys2Proof.Machine.execReturnMarkOutcome r slot outcome s
  | .repairMarkOutcome r slot outcome => Sys2Proof.Machine.execRepairMarkOutcome r slot outcome s
  | .powerUp strap => Sys2Proof.Machine.execPowerUp strap s
  | .resetn => Sys2Proof.Machine.execResetn s
  | .powerDown => Sys2Proof.Machine.execPowerDown s
  | .retainedMemoryLoss => Sys2Proof.Machine.execRetainedMemoryLoss s

end Sys2Proof.Machine
end

