-- ==== Sys2Proof/Machine/Step.lean ====
section
/-!
DEFINITION. One step of the 2416: the command or event at the front of the queue is taken.
-/
namespace Sys2Proof.Machine

/-- One step: the command at the front of the queue is carried out with the queue's rest; on an empty queue the 2416
idles (DESIGN CHOICE, log entry 1). -/
def step (s : State) : Host.Outcome State Fault Refusal :=
  match s.pending with
  | [] => .next s
  | c :: rest => exec c { s with pending := rest }

/-- The state with the command that `w` spells put at the front of its queue; unchanged where `w` spells none. -/
def State.withFetchWord (s : State) (nbits w : Nat) : State :=
  match decodeTableWord nbits w with
  | none => s
  | some c => { s with pending := c :: s.pending }

end Sys2Proof.Machine
end

