-- ==== Sys2Proof/Safety.lean ====
section
/-!
DEFINITION. The terms in which statements about the 2416 are made: what becomes of the three ports in a step, which
states a run can reach (the invariants), and when the feed link follows the tables.
-/
namespace Sys2Proof.Machine

-- What a step does to the ports

/-- The port with its reservation cleared if it names one of the records, in the order given (R190). -/
def PortState.clearAll (q : PortState) (records : List RecordName) : PortState :=
  records.foldl (fun q r => q.clearOn r) q

/-- The port after notices have been formed for it, in the order given (R183). -/
def PortState.told (q : PortState) (notices : List Notice) : PortState := notices.foldl PortState.post q

/-- Notices to the operations port alone. -/
def toOps (notices : List Notice) (p : Port) : List Notice := if p = .ops then notices else []

/-- Notices to the desk port of a rack alone. -/
def toDesk (r : Rack) (notices : List Notice) (p : Port) : List Notice := if p = deskOf r then notices else []

/-- No notices. -/
def toNone (_p : Port) : List Notice := []

/-- In going from `s` to `t` the reservations on `records` were cleared, of all ports at once, the notices joined the
queues, and nothing else befell a port. -/
def Told (s t : State) (records : List RecordName) (notices : Port → List Notice) : Prop :=
  ∀ p, t.port p = ((s.port p).clearAll records).told (notices p)

/-- The same for a command of port `p` that was answered: its reply is in hand after the notices (R176), and nothing else
befell a port. -/
def Answered (s t : State) (p : Port) (tag code : Byte) (reply : Reply) (records : List RecordName)
    (notices : Port → List Notice) : Prop :=
  ∀ x, t.port x =
    if x = p then (((s.port x).clearAll records).told (notices x)).hand tag code reply
    else ((s.port x).clearAll records).told (notices x)

/-- The port with its reservation used up by an accepted conditional command (R196). -/
def PortState.used (q : PortState) (conditional : Bool) : PortState :=
  if conditional then { q with reservation := none } else q

/-- As `Answered`, for a command that carried a conditional flag. -/
def AnsweredIf (s t : State) (conditional : Bool) (p : Port) (tag code : Byte) (reply : Reply)
    (records : List RecordName) (notices : Port → List Notice) : Prop :=
  ∀ x, t.port x =
    if x = p then ((((s.port x).clearAll records).told (notices x)).used conditional).hand tag code reply
    else ((s.port x).clearAll records).told (notices x)

/-- A command of port `p` is taken at once: the part is in HALL and the port has no command in hand (R176). -/
abbrev State.Takes (s : State) (p : Port) : Prop := s.run = .hall ∧ (s.port p).inHand = none

/-- The conditional flag of a command, as its flags byte carries it (R207). -/
def flagByte (conditional : Bool) : Byte := if conditional then 0x01 else 0x00

/-- The port's reservation allows a conditional command on the record (R195). -/
abbrev State.Allows (s : State) (conditional : Bool) (p : Port) (r : Reservation) : Prop :=
  conditional = true → (s.port p).reservation = some r

/-- The result of the first check that fails, of checks in their order: each is its condition and the result of a command
that fails it (R177). None if every check passes. -/
def firstFailure (checks : List (Bool × Result)) : Option Result := (checks.find? (·.1)).map (·.2)

/-- The conditional flag is set and the port's reservation does not name the record, so that a command on it is refused
with RESERVATION_LOST (R195). -/
def State.lostTo (s : State) (flags : Byte) (p : Port) (r : Reservation) : Bool :=
  flags = 0x01 ∧ (s.port p).reservation ≠ some r

/-- The command `i` of port `p` is answered with the reply, and nothing else changes: no record, no notice, no reservation
(R177, R195). -/
def Answers (i : Instr) (s : State) (p : Port) (tag code : Byte) (reply : Reply) : Prop :=
  ∃ t, exec i s = .next t ∧ Answered s t p tag code reply [] toNone ∧
    t = { s with opsPort := t.opsPort, deskAPort := t.deskAPort, deskBPort := t.deskBPort, feed := t.feed }

/-- The command `i` of port `p` is refused by the first of its checks that fails: it is answered with that check's result
alone, and changes nothing (R177). -/
def RefusedBy (i : Instr) (s : State) (p : Port) (tag code : Byte) (checks : List (Bool × Result)) : Prop :=
  ∀ r, firstFailure checks = some r → Answers i s p tag code ⟨r, []⟩

/-- The event `i` is ignored: nothing changes. -/
def Ignored (i : Instr) (s : State) : Prop := ∃ t, exec i s = .next t ∧ t = { s with feed := t.feed }

/-- The flash timers with one lamp's set to 2 s (R41). -/
def flashed (f : Flash) : FlashLamp → Flash
  | .occupied => { f with occupied := 2 }
  | .noLanguage => { f with noLanguage := 2 }
  | .refusal => { f with refusal := 2 }

/-- The event `i` of booth `b` is refused with a flash of a lamp: the lamp's timer is set to 2 s, and nothing else changes
(R41). -/
def Flashes (i : Instr) (s : State) (b : Nat) (lamp : FlashLamp) : Prop :=
  ∃ t, exec i s = .next t ∧ t.booth b = { s.booth b with flash := flashed (s.booth b).flash lamp } ∧
    (∀ x, x ≠ b → t.booth x = s.booth x) ∧ Told s t [] toNone ∧
    t = { s with
      booths := t.booths, opsPort := t.opsPort, deskAPort := t.deskAPort, deskBPort := t.deskBPort, feed := t.feed }

/-- In HALL a transaction is in flight on a rack's bus (R110). -/
abbrev State.InFlight (s : State) (r : Rack) (t : Transaction) : Prop :=
  s.run = .hall ∧ (s.rack r).bus = .busy t

/-- In HALL the booth link is in the slot of booth `b` and waits for its answer (R87). -/
abbrev State.Awaits (s : State) (b : Nat) : Prop := s.run = .hall ∧ s.line.map (·.1) = some b

-- What a change of owner brings with it

/-- The notices of a write of language `l`'s owner field, in their order (R9, R11, R12). -/
def State.ownerNotices (s : State) (l : Nat) (new : Option Nat) : List Notice :=
  if (s.language l).owner = new then []
  else
    .ownerChanged l (s.language l).owner new ::
      match (s.language l).channel with
      | none => []
      | some c =>
        if (s.channel c).state = boundState l new then []
        else [.channelChanged c { s.channel c with state := boundState l new }]

/-- The records a write of language `l`'s owner field changes (R191). -/
def State.ownerRecords (s : State) (l : Nat) (new : Option Nat) : List RecordName :=
  if (s.language l).owner = new then []
  else
    .language l ::
      match (s.language l).channel with
      | none => []
      | some c => if (s.channel c).state = boundState l new then [] else [.channel c]

/-- Channel `c` after a write of language `l`'s owner field: the language's channel follows its owner (R11). -/
def State.ownerChannel (s : State) (l : Nat) (new : Option Nat) (c : Nat) : Channel :=
  if (s.language l).owner ≠ new ∧ (s.language l).channel = some c then { s.channel c with state := boundState l new }
  else s.channel c

/-- The owner of the languages after booth `b` has released `x`, the language it owns (R8). -/
def State.Released (s t : State) (b : Nat) (x : Option Nat) : Prop :=
  ∀ l, t.language l =
    if x = some l ∧ (s.language l).owner = some b then { s.language l with owner := none } else s.language l

/-- Channel `c` after booth `b` has released `x`, if it owns it (R8, R11). -/
def State.releasedChannel (s : State) (b : Nat) (x : Option Nat) (c : Nat) : Channel :=
  match x with
  | some l => if (s.language l).owner = some b then s.ownerChannel l none c else s.channel c
  | none => s.channel c

/-- The notices of a release by booth `b` of `x`, if it owns it (R8, R9, R12). -/
def State.releaseNotices (s : State) (b : Nat) (x : Option Nat) : List Notice :=
  match x with
  | some l => if (s.language l).owner = some b then s.ownerNotices l none else []
  | none => []

/-- The records a release by booth `b` of `x` changes, if it owns it (R191). -/
def State.releaseRecords (s : State) (b : Nat) (x : Option Nat) : List RecordName :=
  match x with
  | some l => if (s.language l).owner = some b then s.ownerRecords l none else []
  | none => []

/-- The records whose reservations a new taker set of booth `a` clears: the booth's own, if its takers change (R192). -/
def State.takerRecords (s : State) (a : Nat) (takers : List Nat) : List RecordName :=
  if takers = (s.booth a).takers then [] else [.booth a]

/-- The records of the source that booth `b` leaves by a new input, if it relays one (R78, R82, R192). -/
def State.leftRecords (s : State) (b : Nat) : List RecordName :=
  match (s.booth b).input with
  | .floor => []
  | .relay a => s.takerRecords a (setDel b (s.booth a).takers)

/-- The records of takers dropped to FLOOR: those whose input changes (R78, R192). -/
def State.droppedRecords (s : State) (dropped : List Nat) : List RecordName :=
  (dropped.filter fun z => (s.booth z).input ≠ .floor).map .booth

/-- The records of the selection of input `i` by booth `x`, which has another: its own, and those of the sources left and
joined (R70, R192). -/
def State.selectionRecords (s : State) (x : Nat) (i : Input) : List RecordName :=
  .booth x :: (s.leftRecords x ++
    match i with
    | .floor => []
    | .relay b => s.takerRecords b (setAdd x (s.booth b).takers))

/-- The seat records and the rest of a booth that a step of the relay map may not write: all but input, taker set and
history stack. -/
def Booth.SameButRelay (v w : Booth) : Prop := w = { v with input := w.input, takers := w.takers, stack := w.stack }

-- Invariants

/-- Every port's notice queue holds at most 16 notices, and its receive buffer at most 256 bytes (R175, R183). -/
def State.PortsBounded (s : State) : Prop :=
  ∀ p, (s.port p).notices.length ≤ Config.noticeLimit ∧ (s.port p).buffered ≤ Config.bufferBytes

/-- Every issue queue holds at most 4 issues (R119). -/
def State.QueuesBounded (s : State) : Prop := ∀ r, (s.rack r).queue.length ≤ Config.queueLimit

/-- The clock lies in its ranges (R198); the retained minute and day are held to it while the retention marker stands. -/
def State.ClockInRange (s : State) : Prop :=
  s.second < 60 ∧ (s.marker = true → s.minute ≤ Config.topMinute ∧ s.day ≤ Config.topDay)

/-- Every table of retained records is in canonical form while the retention marker stands. -/
def State.TablesCanonical (s : State) : Prop :=
  s.marker = true →
    tabWf Language.undefined s.languages = true ∧ tabWf Channel.initial s.channels = true ∧
    tabWf Booth.initial s.booths = true ∧ tabWf none s.receivers = true ∧
    tabWf Account.initial s.accounts = true ∧ tabWf Tariff.initial s.tariffs = true ∧
    tabWf Filter.initial s.filters = true ∧ tabWf ClassReport.initial s.reports = true

/-- The feed link never rests behind the tables: in HALL, with no transmission in progress, no send is due and the table
last transmitted is the feed table as it stands (R22). -/
def State.FeedCurrent (s : State) : Prop :=
  s.run = .hall → s.feed.sending = false → s.feed.due = false ∧ s.feed.last = s.feedTable

/-- Every field of the profile in force lies in its range (R203). -/
def State.ProfileInRange (s : State) : Prop :=
  let v := s.profile
  1 ≤ v.booths ∧ v.booths ≤ 16 ∧ 2 ≤ v.seatCap ∧ v.seatCap ≤ 3 ∧ 4 ≤ v.channels ∧ v.channels ≤ 24 ∧
    1 ≤ v.racks ∧ v.racks ≤ 2 ∧ 8 ≤ v.slots ∧ v.slots ≤ 32 ∧ 5 ≤ v.handoverWindow ∧ v.handoverWindow ≤ 60 ∧
    30 ≤ v.redirectHold ∧ v.redirectHold ≤ 600 ∧ 10 ≤ v.turnLimit ∧ v.turnLimit ≤ 90 ∧
    v.batteryThreshold ≤ 100 ∧ v.serviceInterval ≤ 65535 ∧ 1 ≤ v.relayDepth ∧ v.relayDepth ≤ 2 ∧ v.portRate ≤ 1

/-- A booth's taker set is a rising list in which the booth itself does not stand (R65, R69). -/
def State.TakersRise (s : State) : Prop := ∀ b, (s.booth b).takers.Pairwise (· < ·) ∧ b ∉ (s.booth b).takers

/-- The machine's bounds: what every step of the 2416 keeps. -/
structure State.Bounded (s : State) : Prop where
  ports   : s.PortsBounded
  queues  : s.QueuesBounded
  clock   : s.ClockInRange
  tables  : s.TablesCanonical
  feed    : s.FeedCurrent
  profile : s.ProfileInRange
  takers  : s.TakersRise

/-- A language a configuration names. -/
def BoothConfig.names (c : BoothConfig) (l : Nat) : Prop := c.outputA = some l ∨ c.outputB = some l ∨ l ∈ c.accepted

/-- The language table and the channel map agree: a language's channel field names the channel whose state names it, and
that channel is LIVE when the language has an owner and MAPPED when it has none (R11). -/
def State.BindingsAgree (s : State) : Prop :=
  (∀ l c, (s.language l).channel = some c →
    1 ≤ c ∧ c ≤ 24 ∧ (s.channel c).state = boundState l (s.language l).owner) ∧
  (∀ c l, (s.channel c).state.language = some l → (s.language l).channel = some c)

/-- The languages agree with all that names them while the retention marker stands: the bindings agree, a defined language
is one of the 32 and an undefined one is blank (R1), and every language a booth's configuration names is defined (R3,
R29). -/
def State.LanguagesAgree (s : State) : Prop :=
  s.marker = true →
    s.BindingsAgree ∧
    (∀ l, if (s.language l).defined then l ≤ 31 else s.language l = .undefined) ∧
    (∀ b l, (s.booth b).config.names l → 1 ≤ b ∧ b ≤ 16 ∧ (s.language l).defined = true)

end Sys2Proof.Machine
end

