-- ==== Sys2Proof/Certificates/Slice0/Obligations.lean ====
section
/-!
DEFINITION. The statements about the 2416 that are to be proved.
-/
section

open Sys2Proof Sys2Proof.Machine

-- The queue of commands

/-- A step takes the command at the front of the queue and carries it out with the queue's rest; on an empty queue the
2416 idles, which is the model's choice (log entry 1). -/
def Obligations.StepTakesFrontCommand : Prop :=
  (∀ (c : Instr) (rest : List Instr) (s : State), s.pending = c :: rest → step s = exec c { s with pending := rest }) ∧
  (∀ s : State, s.pending = [] → step s = .next s)

/-- Every command and event completes, and none of them touches the queue of the waiting ones. -/
def Obligations.ExecKeepsQueue : Prop :=
  ∀ (c : Instr) (s : State), ∃ t, exec c s = .next t ∧ t.pending = s.pending

-- Chapter 1: languages and channels

/-- The characters of a label field before its 00H padding are printable, and nothing follows the padding (R2, R207). -/
def labelField (label : List Byte) : Bool :=
  (label.takeWhile (· ≠ 0x00)).all printable && (label.dropWhile (· ≠ 0x00)).all (· = 0x00)

/-- The checks of LANG_DEFINE (R2). -/
def langDefineChecks (s : State) (flags index : Byte) (code label : List Byte) : List (Bool × Result) :=
  let v := s.language index.toNat
  [(1 < flags.toNat ∨ 31 < index.toNat ∨ code.all capital = false ∨ labelField label = false, .badArg),
   (s.lostTo flags .ops ⟨.language index.toNat, 0⟩, .reservationLost),
   (∃ j ∈ List.range 32, j ≠ index.toNat ∧ (s.language j).defined = true ∧ (s.language j).code = code, .exists),
   (v.defined = true ∧ v.code ≠ code, .wrongState)]

/-- The checks of LANG_REMOVE (R3). -/
def langRemoveChecks (s : State) (index : Byte) : List (Bool × Result) :=
  let v := s.language index.toNat
  [(31 < index.toNat, .badArg),
   (v.defined = false, .noRecord),
   (v.channel ≠ none ∨ v.owner ≠ none ∨ v.listeners ≠ 0 ∨
      ∃ b ∈ List.range' 1 16,
        let c := (s.booth b).config
        c.outputA = some index.toNat ∨ c.outputB = some index.toNat ∨ index.toNat ∈ c.accepted, .wrongState)]

/-- LANG_DEFINE and LANG_REMOVE (R2, R3): an undefined index becomes defined with the code and label, with no channel, no
owner and listener count 0, and a defined index with the same code changes its label alone; a defined language with no
channel, no owner, no listeners and no place in a booth's configuration becomes undefined. Each command is refused by the
first of its checks that fails and then changes nothing; a conditional LANG_DEFINE whose port's reservation is not valid on
the language is refused with RESERVATION_LOST (R195). -/
def Obligations.LanguageCommandsWrite : Prop :=
  (∀ (s : State) (tag flags index c0 c1 c2 : Byte) (label : List Byte),
    s.Takes .ops → label.length = 12 →
    RefusedBy (.langDefine .ops tag (flags :: index :: c0 :: c1 :: c2 :: label)) s .ops tag 0x10
      (langDefineChecks s flags index [c0, c1, c2] label)) ∧
  (∀ (s : State) (tag index : Byte),
    s.Takes .ops → RefusedBy (.langRemove .ops tag [index]) s .ops tag 0x11 (langRemoveChecks s index)) ∧
  (∀ (s : State) (cond : Bool) (tag index c0 c1 c2 : Byte) (text : List Byte),
    s.Takes .ops → index.toNat ≤ 31 → [c0, c1, c2].all capital = true →
    text.length ≤ 12 → text.all printable = true →
    s.Allows cond .ops ⟨.language index.toNat, 0⟩ →
    (∀ j, j ≤ 31 → j ≠ index.toNat → (s.language j).defined = true → (s.language j).code ≠ [c0, c1, c2]) →
    ((s.language index.toNat).defined = true → (s.language index.toNat).code = [c0, c1, c2]) →
    let v : Language :=
      if (s.language index.toNat).defined then { s.language index.toNat with label := text }
      else ⟨true, [c0, c1, c2], text, none, none, 0⟩
    ∃ t, exec (.langDefine .ops tag (flagByte cond :: index :: c0 :: c1 :: c2 :: textBytes 12 text)) s = .next t ∧
      t.language index.toNat = v ∧
      (∀ j, j ≠ index.toNat → t.language j = s.language j) ∧
      AnsweredIf s t cond .ops tag 0x10 (.bare .ok)
        (if v = s.language index.toNat then [] else [.language index.toNat]) toNone ∧
      t = { s with
        languages := t.languages, opsPort := t.opsPort, deskAPort := t.deskAPort, deskBPort := t.deskBPort,
        feed := t.feed }) ∧
  (∀ (s : State) (tag index : Byte),
    s.Takes .ops → index.toNat ≤ 31 →
    (s.language index.toNat).defined = true → (s.language index.toNat).channel = none →
    (s.language index.toNat).owner = none → (s.language index.toNat).listeners = 0 →
    (∀ b, 1 ≤ b → b ≤ 16 →
      (s.booth b).config.outputA ≠ some index.toNat ∧ (s.booth b).config.outputB ≠ some index.toNat ∧
      index.toNat ∉ (s.booth b).config.accepted) →
    ∃ t, exec (.langRemove .ops tag [index]) s = .next t ∧
      t.language index.toNat = .undefined ∧
      (∀ j, j ≠ index.toNat → t.language j = s.language j) ∧
      Answered s t .ops tag 0x11 (.bare .ok) [.language index.toNat] toNone ∧
      t = { s with
        languages := t.languages, opsPort := t.opsPort, deskAPort := t.deskAPort, deskBPort := t.deskBPort,
        feed := t.feed })

/-- A channel argument is out of range: 0, above 24, or above the channels fitted (R13). -/
def badChannel (s : State) (channel : Byte) : Bool :=
  channel = 0x00 ∨ 24 < channel.toNat ∨ s.profile.channels < channel.toNat

/-- The checks of CHAN_MAP (R13, R14). -/
def chanMapChecks (s : State) (channel language : Byte) : List (Bool × Result) :=
  [(badChannel s channel = true ∨ 31 < language.toNat, .badArg),
   ((s.language language.toNat).defined = false, .noRecord),
   ((s.channel channel.toNat).state ≠ .free ∨ (s.language language.toNat).channel ≠ none, .wrongState)]

/-- CHAN_MAP (R13, R14): a FREE fitted channel and a defined language without a channel are bound, the channel LIVE if the
language has an owner and MAPPED if not, and CHANNEL_CHANGED is sent; otherwise the command is refused by the first of its
checks that fails and changes nothing. -/
def Obligations.ChanMapBinds : Prop :=
  (∀ (s : State) (tag channel language : Byte),
    s.Takes .ops →
    RefusedBy (.chanMap .ops tag [channel, language]) s .ops tag 0x12 (chanMapChecks s channel language)) ∧
  ∀ (s : State) (tag channel language : Byte),
    s.Takes .ops → s.channelOk channel = true → language.toNat ≤ 31 →
    (s.language language.toNat).defined = true → (s.language language.toNat).channel = none →
    (s.channel channel.toNat).state = .free →
    let after : Channel :=
      { s.channel channel.toNat with state := boundState language.toNat (s.language language.toNat).owner }
    ∃ t, exec (.chanMap .ops tag [channel, language]) s = .next t ∧
      t.channel channel.toNat = after ∧
      (∀ c, c ≠ channel.toNat → t.channel c = s.channel c) ∧
      t.language language.toNat = { s.language language.toNat with channel := some channel.toNat } ∧
      (∀ l, l ≠ language.toNat → t.language l = s.language l) ∧
      Answered s t .ops tag 0x12 (.bare .ok) [.channel channel.toNat, .language language.toNat]
        (toOps [.channelChanged channel.toNat after]) ∧
      t = { s with
        languages := t.languages, channels := t.channels, opsPort := t.opsPort, deskAPort := t.deskAPort,
        deskBPort := t.deskBPort, feed := t.feed }

/-- The REDIRECT channels 1 to 24 whose target is `c`, ascending. -/
def redirectsTo (s : State) (c : Nat) : List Nat :=
  (List.range' 1 24).filter fun x => (s.channel x).state.target = c

/-- The checks of CHAN_UNMAP (R13, R15). -/
def chanUnmapChecks (s : State) (flags channel force : Byte) : List (Bool × Result) :=
  let bound := (s.channel channel.toNat).state.language
  [(1 < flags.toNat ∨ badChannel s channel = true ∨ 1 < force.toNat, .badArg),
   (s.lostTo flags .ops ⟨.channel channel.toNat, 0⟩, .reservationLost),
   (bound = none ∨ (force = 0x00 ∧ bound.any (fun l => 0 < (s.language l).listeners) = true), .wrongState)]

/-- CHAN_UNMAP (R13, R15): a bound channel becomes FREE and its language loses it; every redirect to it ends with cause
UNMAPPED, in ascending channel number. Otherwise the command is refused by the first of its checks that fails and changes
nothing, with RESERVATION_LOST if it is conditional and the port's reservation is not valid on the channel (R195). -/
def Obligations.ChanUnmapFrees : Prop :=
  (∀ (s : State) (tag flags channel force : Byte),
    s.Takes .ops →
    RefusedBy (.chanUnmap .ops tag [flags, channel, force]) s .ops tag 0x13 (chanUnmapChecks s flags channel force)) ∧
  ∀ (s : State) (cond force : Bool) (tag channel : Byte) (l : Nat),
    s.Takes .ops → s.channelOk channel = true →
    s.Allows cond .ops ⟨.channel channel.toNat, 0⟩ →
    (s.channel channel.toNat).state.language = some l →
    (s.language l).channel ≠ none →
    (force = true ∨ (s.language l).listeners = 0) →
    let c := channel.toNat
    let freed (x : Nat) : Channel := { s.channel x with state := .free }
    ∃ t, exec (.chanUnmap .ops tag [flagByte cond, channel, if force then 0x01 else 0x00]) s = .next t ∧
      (∀ x, t.channel x = if x = c ∨ x ∈ redirectsTo s c then freed x else s.channel x) ∧
      t.language l = { s.language l with channel := none } ∧
      (∀ k, k ≠ l → t.language k = s.language k) ∧
      AnsweredIf s t cond .ops tag 0x13 (.bare .ok)
        (.channel c :: .language l :: (redirectsTo s c).map .channel)
        (toOps (.channelChanged c (freed c) ::
          (redirectsTo s c).flatMap fun x => [.channelChanged x (freed x), .redirectEnded x c .unmapped])) ∧
      t = { s with
        languages := t.languages, channels := t.channels, opsPort := t.opsPort, deskAPort := t.deskAPort,
        deskBPort := t.deskBPort, feed := t.feed }

/-- The checks of CHAN_MOVE (R13, R16). -/
def chanMoveChecks (s : State) (flags a b : Byte) : List (Bool × Result) :=
  [(1 < flags.toNat ∨ badChannel s a = true ∨ badChannel s b = true ∨ a = b, .badArg),
   (s.lostTo flags .ops ⟨.channel a.toNat, 0⟩, .reservationLost),
   ((s.channel a.toNat).state.language = none ∨ (s.channel b.toNat).state ≠ .free, .wrongState)]

/-- CHAN_MOVE (R13, R16): the language of `a` moves to the FREE channel `b`; `a` becomes REDIRECT to `b` with the profile's
redirect hold, and every redirect to `a` is retargeted to `b`, keeping its remaining hold. Otherwise the command is refused
by the first of its checks that fails and changes nothing, with RESERVATION_LOST if it is conditional and the port's
reservation is not valid on `a` (R195). -/
def Obligations.ChanMoveMoves : Prop :=
  (∀ (s : State) (tag flags a b : Byte),
    s.Takes .ops →
    RefusedBy (.chanMove .ops tag [flags, a, b]) s .ops tag 0x14 (chanMoveChecks s flags a b)) ∧
  ∀ (s : State) (cond : Bool) (tag aByte bByte : Byte) (l : Nat),
    s.Takes .ops → s.channelOk aByte = true → s.channelOk bByte = true → aByte ≠ bByte →
    s.Allows cond .ops ⟨.channel aByte.toNat, 0⟩ →
    (s.channel aByte.toNat).state.language = some l → (s.language l).channel = some aByte.toNat →
    (s.channel bByte.toNat).state = .free →
    let a := aByte.toNat
    let b := bByte.toNat
    let moved (x : Nat) : Channel :=
      if x = b then { s.channel b with state := boundState l (s.language l).owner }
      else if x = a then { s.channel a with state := .redirect b s.profile.redirectHold }
      else if x ∈ redirectsTo s a then { s.channel x with state := .redirect b (s.channel x).state.hold }
      else s.channel x
    ∃ t, exec (.chanMove .ops tag [flagByte cond, aByte, bByte]) s = .next t ∧
      (∀ x, t.channel x = moved x) ∧
      t.language l = { s.language l with channel := some b } ∧
      (∀ k, k ≠ l → t.language k = s.language k) ∧
      AnsweredIf s t cond .ops tag 0x14 (.bare .ok)
        (.channel b :: .language l :: .channel a :: (redirectsTo s a).map .channel)
        (toOps (.channelChanged b (moved b) :: .channelChanged a (moved a) ::
          (redirectsTo s a).map fun x => .channelChanged x (moved x))) ∧
      t = { s with
        languages := t.languages, channels := t.channels, opsPort := t.opsPort, deskAPort := t.deskAPort,
        deskBPort := t.deskBPort, feed := t.feed }

/-- CHAN_FLOORFILL (R13, R17): the flag of a fitted channel is written; with the present value nothing changes and nothing is
sent, otherwise CHANNEL_CHANGED is sent. An argument out of range is answered BAD_ARG and changes nothing. -/
def Obligations.ChanFloorfillWrites : Prop :=
  (∀ (s : State) (tag channel on : Byte),
    s.Takes .ops →
    RefusedBy (.chanFloorfill .ops tag [channel, on]) s .ops tag 0x15
      [(badChannel s channel = true ∨ 1 < on.toNat, .badArg)]) ∧
  ∀ (s : State) (on : Bool) (tag channel : Byte),
    s.Takes .ops → s.channelOk channel = true →
    let c := channel.toNat
    let after : Channel := { s.channel c with floorFill := on }
    ∃ t, exec (.chanFloorfill .ops tag [channel, if on then 0x01 else 0x00]) s = .next t ∧
      t.channel c = after ∧ (∀ x, x ≠ c → t.channel x = s.channel x) ∧
      Answered s t .ops tag 0x15 (.bare .ok) (if after = s.channel c then [] else [.channel c])
        (toOps (if after = s.channel c then [] else [.channelChanged c after])) ∧
      t = { s with
        channels := t.channels, opsPort := t.opsPort, deskAPort := t.deskAPort, deskBPort := t.deskBPort,
        feed := t.feed }

/-- REDIRECT_EXPIRY (R18): a REDIRECT channel becomes FREE, and CHANNEL_CHANGED and REDIRECT_ENDED with cause EXPIRED are
sent; a channel in another state is not touched (R19). R18 makes the channel expire when its hold reaches 0; that the row
acts whatever hold is left is the model's choice (log entry 13). -/
def Obligations.RedirectExpires : Prop :=
  (∀ (s : State) (c : Nat),
    s.run = .hall → (∀ target hold, (s.channel c).state ≠ .redirect target hold) → Ignored (.redirectExpiry c) s) ∧
  ∀ (s : State) (c target hold : Nat),
    s.run = .hall → (s.channel c).state = .redirect target hold →
    let after : Channel := { s.channel c with state := .free }
    ∃ t, exec (.redirectExpiry c) s = .next t ∧
      t.channel c = after ∧ (∀ x, x ≠ c → t.channel x = s.channel x) ∧
      Told s t [.channel c] (toOps [.channelChanged c after, .redirectEnded c target .expired]) ∧
      t = { s with
        channels := t.channels, opsPort := t.opsPort, deskAPort := t.deskAPort, deskBPort := t.deskBPort,
        feed := t.feed }

-- Chapters 2 and 3: booths, seats and handovers

/-- The part of R30 that follows the write of a configuration `c` that differs from booth `b`'s present one. Step 2: with a
seat on air and the selected output language changed from `x` to `y`, a switch gains `y` if it is free (or the booth's
own) and loses `x`; otherwise the seat goes OFF and `x` is released. Step 3: with the language changed, every taker
follows `y` or is dropped. Step 4: the booth's own relay is dropped if its source's language is not accepted. Step 5: the
overdue test of the seat still on air, when the turn limit has changed. The relay notices are in ascending taker number
(R85), the booth's own drop in its place among them (log entry 39). The records are the booth's own, those of the languages
lost and gained, and those of the booths dropped and left. -/
def ConfigActs (s t : State) (b : Nat) (c : BoothConfig) (records : List RecordName) (notices : List Notice) : Prop :=
  let v := s.booth b
  let kept : Output := if v.selected = .b ∧ c.outputB = none then .a else v.selected
  let x := v.language
  let y := match kept with | .a => c.outputA | .b => c.outputB
  let acts : Bool := decide (x ≠ y) && v.onAirSeat.isSome
  let gained := if acts then y.filter fun l => (s.language l).owner = none ∨ (s.language l).owner = some b else none
  let lost := if acts then x.filter fun k => (s.language k).owner = some b else none
  let off := if acts && gained.isNone then v.onAirSeat else none
  let visited := if x = y then [] else v.takers
  let dropped := visited.filter fun z => !(y.any fun l => (s.booth z).config.accepted.contains l)
  let own : Option Nat :=
    match v.input with
    | .floor => none
    | .relay a =>
      if (if a = b then y else (s.booth a).language).any fun l => c.accepted.contains l then none else some a
  let still := [1, 2, 3].find? fun n => (v.seat n).onAir && off ≠ some n
  let overdue :=
    if c.turnLimit = v.config.turnLimit then none
    else still.filter fun n => c.turnLimit ≤ (v.seat n).turn ∧ (v.seat n).overdue = false
  let visit (z : Nat) : Notice :=
    match y with
    | some l => if z ∈ dropped then .relayDropped z b .notUnderstood else .relayFollowed z b l
    | none => .relayDropped z b .notUnderstood
  (∀ j, t.language j =
    if gained = some j then { s.language j with owner := some b }
    else if lost = some j then { s.language j with owner := none }
    else s.language j) ∧
  (∀ h, t.channel h =
    match gained.filter fun l => (s.language l).owner = none ∧ (s.language l).channel = some h,
      lost.filter fun k => (s.language k).channel = some h with
    | some l, _ => { s.channel h with state := .live l }
    | none, some k => { s.channel h with state := .mapped k }
    | none, none => s.channel h) ∧
  (∀ n, (t.booth b).seat n =
    if off = some n then { v.seat n with state := .off, overdue := false }
    else if overdue = some n then { v.seat n with overdue := true }
    else v.seat n) ∧
  t.booth b =
    { v with
      config := c
      selected := kept
      seats := (t.booth b).seats
      handover := if off.isSome then none else v.handover
      input := if own.isSome then .floor else v.input
      stack := if own.isSome then v.stack.push v.input else v.stack
      takers := v.takers.filter fun z => z ∉ dropped } ∧
  (∀ z, z ≠ b → t.booth z =
    { s.booth z with
      input := if z ∈ dropped then .floor else (s.booth z).input
      stack := if z ∈ dropped then (s.booth z).stack.push (.relay b) else (s.booth z).stack
      takers := if own = some z then setDel b (s.booth z).takers else (s.booth z).takers }) ∧
  (s.BindingsAgree →
    records =
      [.booth b] ++ (match lost with | some k => s.ownerRecords k none | none => []) ++
      (match gained with | some l => s.ownerRecords l (some b) | none => []) ++
      s.droppedRecords dropped ++
      (match own with | some a => s.takerRecords a (setDel b (s.booth a).takers) | none => [])) ∧
  (s.BindingsAgree →
    notices =
      (match lost with | some k => s.ownerNotices k none | none => []) ++
      (match gained with | some l => s.ownerNotices l (some b) | none => []) ++
      ((visited.filter (· < b)).map visit ++
        (match own with | some a => [.relayDropped b a .notUnderstood] | none => []) ++
        (visited.filter (b < ·)).map visit) ++
      (match overdue with | some n => [.turnOverdue b n (v.seat n).turn] | none => []))

/-- A booth argument is out of range: 0, above 16, or above the booths fitted (R29, R59, R61, R74). -/
def badBooth (s : State) (booth : Byte) : Bool :=
  booth = 0x00 ∨ 16 < booth.toNat ∨ s.profile.booths < booth.toNat

/-- The checks of BOOTH_CONFIG (R29, R207, R208): `members` are the four bytes of the accepted set, those beyond its count
0FFH. -/
def boothConfigChecks (s : State) (flags booth outA outB mode count : Byte) (members : List Byte) (limit : Byte) :
    List (Bool × Result) :=
  let accepted := members.take count.toNat
  [(1 < flags.toNat ∨ badBooth s booth = true ∨
      (∃ x ∈ [outA, outB], x ≠ 0xFF ∧ 31 < x.toNat) ∨ 4 < count.toNat ∨ (∃ x ∈ accepted, 31 < x.toNat) ∨
      ¬ accepted.Nodup ∨ (∃ x ∈ members.drop count.toNat, x ≠ 0xFF) ∨
      1 < mode.toNat ∨ limit.toNat < 10 ∨ 90 < limit.toNat, .badArg),
   (s.lostTo flags .ops ⟨.booth booth.toNat, 0⟩, .reservationLost),
   (∃ x ∈ [outA, outB].filter (fun x => x ≠ 0xFF) ++ accepted, (s.language x.toNat).defined = false, .noRecord)]

/-- BOOTH_CONFIG (R29, R30): an accepted configuration is written whole, output B gives way to output A when it has no
language, and no other booth's configuration, no seat counter and nothing of a language but its owner is touched; one that
differs from the present configuration brings the selected language, the seats, the takers, the booth's own relay and the
turn timing into line (steps 2 to 5, `ConfigActs`), and clears the reservations of those it changes. Otherwise the command is
refused by the first of its checks that fails and changes nothing, with RESERVATION_LOST if it is conditional and the port's
reservation is not valid on the booth (R195). That the relay notices of steps 3 and 4 come in one ascending order is the
model's choice (log entry 39). -/
def Obligations.BoothConfigWrites : Prop :=
  (∀ (s : State) (tag flags booth outA outB mode count m1 m2 m3 m4 limit : Byte),
    s.Takes .ops →
    RefusedBy (.boothConfig .ops tag [flags, booth, outA, outB, mode, count, m1, m2, m3, m4, limit]) s .ops tag 0x16
      (boothConfigChecks s flags booth outA outB mode count [m1, m2, m3, m4] limit)) ∧
  ∀ (s : State) (cond : Bool) (tag booth outA outB modeByte count m1 m2 m3 m4 limit : Byte) (c : BoothConfig),
    s.Takes .ops → s.boothOk booth = true →
    outputOf outA = some c.outputA → outputOf outB = some c.outputB → modeOf modeByte = some c.mode →
    acceptedOf count [m1, m2, m3, m4] = some c.accepted → limit.toNat = c.turnLimit →
    10 ≤ c.turnLimit → c.turnLimit ≤ 90 →
    s.Allows cond .ops ⟨.booth booth.toNat, 0⟩ →
    (∀ l, c.outputA = some l ∨ c.outputB = some l ∨ l ∈ c.accepted → (s.language l).defined = true) →
    let b := booth.toNat
    ∃ t, exec (.boothConfig .ops tag
        [flagByte cond, booth, outA, outB, modeByte, count, m1, m2, m3, m4, limit]) s = .next t ∧
      (t.booth b).config = c ∧
      (t.booth b).selected =
        (if (s.booth b).selected = .b ∧ c.outputB = none ∧ (s.booth b).config ≠ c then .a else (s.booth b).selected) ∧
      (∀ x, x ≠ b → (s.booth x).SameButRelay (t.booth x)) ∧
      (∀ x n, ((t.booth x).seat n).turn = ((s.booth x).seat n).turn ∧
        ((t.booth x).seat n).liveMinutes = ((s.booth x).seat n).liveMinutes) ∧
      (t.booth b).link = (s.booth b).link ∧ (t.booth b).granted = (s.booth b).granted ∧
      (t.booth b).flash = (s.booth b).flash ∧
      (∀ l, t.language l = { s.language l with owner := (t.language l).owner }) ∧
      (∀ x, t.channel x = { s.channel x with state := (t.channel x).state }) ∧
      (∃ records notices,
        AnsweredIf s t cond .ops tag 0x16 (.bare .ok) records (toOps notices) ∧
        ((s.booth b).config ≠ c → .booth b ∈ records) ∧
        ((s.booth b).config = c → records = [] ∧ notices = []) ∧
        ((s.booth b).config ≠ c → s.TakersRise → ConfigActs s t b c records notices)) ∧
      t = { s with
        languages := t.languages, channels := t.channels, booths := t.booths, opsPort := t.opsPort,
        deskAPort := t.deskAPort, deskBPort := t.deskBPort, feed := t.feed }

/-- MIC on an OFF seat of a PRESENT booth with no seat on air (R33, R34): the language is acquired and the seat is LIVE with
turn counter 0 and overdue mark clear; with no selected output language the NO LANGUAGE lamp flashes, with the language
owned by another booth the OCCUPIED lamp, and nothing else changes. A press on an ABSENT seat, or on a seat other than 1 to
3 (R96), and a press at a booth that is not PRESENT, are ignored. -/
def Obligations.MicGoesOnAir : Prop :=
  (∀ (s : State) (b n : Nat),
    s.run = .hall → 1 ≤ n → n ≤ 3 → (s.booth b).link.state = .present →
    ((s.booth b).seat n).state = .off → (s.booth b).onAirSeat = none →
    ((s.booth b).language = none → Flashes (.mic b n) s b .noLanguage) ∧
    (∀ l o, (s.booth b).language = some l → (s.language l).owner = some o → o ≠ b →
      Flashes (.mic b n) s b .occupied)) ∧
  (∀ (s : State) (b n : Nat),
    s.run = .hall →
    (s.booth b).link.state ≠ .present ∨ n = 0 ∨ 3 < n ∨ ((s.booth b).seat n).state = .absent →
    Ignored (.mic b n) s) ∧
  ∀ (s : State) (b n l : Nat),
    s.run = .hall → 1 ≤ n → n ≤ 3 → (s.booth b).link.state = .present →
    ((s.booth b).seat n).state = .off → (s.booth b).onAirSeat = none →
    (s.booth b).language = some l → ((s.language l).owner = none ∨ (s.language l).owner = some b) →
    ∃ t, exec (.mic b n) s = .next t ∧
      t.booth b =
        (s.booth b).setSeat n { (s.booth b).seat n with state := .live, turn := 0, overdue := false } ∧
      (∀ x, x ≠ b → t.booth x = s.booth x) ∧
      t.language l = { s.language l with owner := some b } ∧ (∀ k, k ≠ l → t.language k = s.language k) ∧
      (∀ c, t.channel c = s.ownerChannel l (some b) c) ∧
      Told s t (s.ownerRecords l (some b) ++ [.booth b]) (toOps (s.ownerNotices l (some b))) ∧
      t = { s with
        languages := t.languages, channels := t.channels, booths := t.booths, opsPort := t.opsPort,
        deskAPort := t.deskAPort, deskBPort := t.deskBPort, feed := t.feed }

/-- MIC on the on-air seat with no request pending (R35): the seat goes OFF with its turn counter kept, and the booth
releases its language. -/
def Obligations.MicGoesOffAir : Prop :=
  ∀ (s : State) (b n : Nat),
    s.run = .hall → 1 ≤ n → n ≤ 3 → (s.booth b).link.state = .present →
    ((s.booth b).seat n).onAir = true → (s.booth b).handover = none →
    ∃ t, exec (.mic b n) s = .next t ∧
      t.booth b =
        (s.booth b).setSeat n { (s.booth b).seat n with state := .off, overdue := false } ∧
      (∀ x, x ≠ b → t.booth x = s.booth x) ∧
      s.Released t b (s.booth b).language ∧
      (∀ c, t.channel c =
        match (s.booth b).language with
        | some l => if (s.language l).owner = some b then s.ownerChannel l none c else s.channel c
        | none => s.channel c) ∧
      Told s t
        (.booth b ::
          match (s.booth b).language with
          | some l => if (s.language l).owner = some b then s.ownerRecords l none else []
          | none => [])
        (toOps
          (match (s.booth b).language with
           | some l => if (s.language l).owner = some b then s.ownerNotices l none else []
           | none => [])) ∧
      t = { s with
        languages := t.languages, channels := t.channels, booths := t.booths, opsPort := t.opsPort,
        deskAPort := t.deskAPort, deskBPort := t.deskBPort, feed := t.feed }

/-- The booth after a transfer from seat `o` to seat `n` (R53). -/
def transferred (v : Booth) (o n : Nat) : Booth :=
  { (v.setSeat n { v.seat n with state := .live, turn := 0, overdue := false }).setSeat o
      { v.seat o with state := .off, overdue := false } with
    handover := none }

/-- MIC on an OFF seat `n` while seat `o` is on air, and on seat `o` while a request is pending (R49, R50, R52, R53, R54,
R55): a request with the profile's full window, its withdrawal, a refusal, or a transfer with HANDOVER_DONE. -/
def Obligations.MicHandsOver : Prop :=
  ∀ (s : State) (b o n : Nat),
    s.run = .hall → 1 ≤ o → o ≤ 3 → 1 ≤ n → n ≤ 3 → o ≠ n → (s.booth b).link.state = .present →
    (s.booth b).onAirSeat = some o → ((s.booth b).seat o).onAir = true → ((s.booth b).seat n).state = .off →
    let v := s.booth b
    let done := [Notice.handoverDone b o n (v.seat o).turn]
    -- what a press on seat `key` makes of booth `b`, with its notices
    let press (key : Nat) (w : Booth) (notices : List Notice) : Prop :=
      ∃ t, exec (.mic b key) s = .next t ∧ t.booth b = w ∧ (∀ x, x ≠ b → t.booth x = s.booth x) ∧
        Told s t (if w.view = v.view then [] else [.booth b]) (toOps notices) ∧
        t = { s with
          booths := t.booths, opsPort := t.opsPort, deskAPort := t.deskAPort, deskBPort := t.deskBPort,
          feed := t.feed }
    match v.handover with
    | none =>
      match v.config.mode with
      | .announced => press n { v with handover := some ⟨n, s.profile.handoverWindow⟩ } []
      | .direct => press n (transferred v o n) done
    | some r =>
      if r.requester = n then press n { v with handover := none } [] ∧ press o (transferred v o n) done
      else press n { v with flash := { v.flash with refusal := 2 } } []

/-- MUTE_DOWN and MUTE_UP (R36): with granted mute keys the on-air seat moves between LIVE and MUTED, and nothing else
changes; without them, in any other state of the seat, for a seat other than 1 to 3 (R96), and at a booth that is not
PRESENT, the event is ignored. -/
def Obligations.MuteKeysMove : Prop :=
  (∀ (s : State) (b n : Nat),
    s.run = .hall → (s.booth b).link.state ≠ .present ∨ n = 0 ∨ 3 < n →
    Ignored (.muteDown b n) s ∧ Ignored (.muteUp b n) s) ∧
  ∀ (s : State) (b n : Nat) (down : Bool),
    s.run = .hall → 1 ≤ n → n ≤ 3 → (s.booth b).link.state = .present →
    let able := (s.booth b).granted.map (·.mute) = some true
    (able → ((s.booth b).seat n).state = (if down then .live else .muted) →
      ∃ t, exec (if down then .muteDown b n else .muteUp b n) s = .next t ∧
        t.booth b = (s.booth b).setSeat n { (s.booth b).seat n with state := if down then .muted else .live } ∧
        (∀ x, x ≠ b → t.booth x = s.booth x) ∧
        Told s t [.booth b] toNone ∧
        t = { s with
          booths := t.booths, opsPort := t.opsPort, deskAPort := t.deskAPort, deskBPort := t.deskBPort,
          feed := t.feed }) ∧
    (¬ able ∨ ((s.booth b).seat n).state ≠ (if down then .live else .muted) →
      ∃ t, exec (if down then .muteDown b n else .muteUp b n) s = .next t ∧ t = { s with feed := t.feed })

/-- The takers of booth `b` that do not accept language `y` (R79). -/
def refusing (s : State) (b y : Nat) : List Nat :=
  (s.booth b).takers.filter fun c => !(s.booth c).config.accepted.contains y

/-- The key event for an output. -/
def outputKey (o : Output) (b : Nat) : Instr :=
  match o with
  | .a => .outputA b
  | .b => .outputB b

/-- OUTPUT_A and OUTPUT_B with no seat on air (R38, R79): the selection changes, every taker follows the new language or is
dropped to FLOOR, and no language changes hands; an output A without a language is selected, and drops every taker (R80).
Where both outputs name the same language the selection alone changes. The key of the output already selected, and a key at
a booth that is not PRESENT, are ignored; OUTPUT_B without its ability flashes the REFUSAL lamp, OUTPUT_B without a
language, and OUTPUT_A without one while a seat is on air, the NO LANGUAGE lamp, and nothing else changes (R37). -/
def Obligations.OutputKeysSelect : Prop :=
  (∀ (s : State) (b : Nat) (o : Output),
    s.run = .hall → (s.booth b).link.state ≠ .present ∨ (s.booth b).selected = o → Ignored (outputKey o b) s) ∧
  (∀ (s : State) (b : Nat),
    s.run = .hall → (s.booth b).link.state = .present →
    let v := s.booth b
    let able := v.granted.map (·.outputB) = some true
    (v.selected ≠ .b → ¬ able → Flashes (.outputB b) s b .refusal) ∧
    (v.selected ≠ .b → able → v.config.outputB = none → Flashes (.outputB b) s b .noLanguage) ∧
    (v.selected ≠ .a → v.config.outputA = none → v.onAirSeat ≠ none → Flashes (.outputA b) s b .noLanguage) ∧
    (v.selected ≠ .a → v.config.outputA = none → v.onAirSeat = none → v.language ≠ none → v.takers.Nodup →
      ∃ t, exec (.outputA b) s = .next t ∧
        (∀ x, t.booth x =
          { s.booth x with
            selected := if x = b then .a else (s.booth x).selected
            input := if x ∈ v.takers then .floor else (s.booth x).input
            stack := if x ∈ v.takers then (s.booth x).stack.push (.relay b) else (s.booth x).stack
            takers := if x = b then [] else (s.booth x).takers }) ∧
        Told s t (.booth b :: s.droppedRecords v.takers)
          (toOps (v.takers.map fun c => .relayDropped c b .notUnderstood)) ∧
        t = { s with
          booths := t.booths, opsPort := t.opsPort, deskAPort := t.deskAPort, deskBPort := t.deskBPort,
          feed := t.feed }) ∧
    (∀ o, v.selected ≠ o → (o = .b → able ∧ v.config.outputB ≠ none) → v.onAirSeat = none →
      v.outputLanguage o = v.language →
      ∃ t, exec (outputKey o b) s = .next t ∧ t.booth b = { v with selected := o } ∧
        (∀ x, x ≠ b → t.booth x = s.booth x) ∧ Told s t [.booth b] toNone ∧
        t = { s with
          booths := t.booths, opsPort := t.opsPort, deskAPort := t.deskAPort, deskBPort := t.deskBPort,
          feed := t.feed })) ∧
  ∀ (s : State) (b y : Nat) (o : Output) (g : Abilities),
    s.run = .hall → (s.booth b).link.state = .present → (s.booth b).granted = some g →
    (o = .b → g.outputB = true) → (s.booth b).selected ≠ o → (s.booth b).outputLanguage o = some y →
    (s.booth b).onAirSeat = none → (s.booth b).language ≠ some y → (s.booth b).takers.Nodup →
    let dropped := refusing s b y
    ∃ t, exec (outputKey o b) s = .next t ∧
      (∀ x, t.booth x =
        { s.booth x with
          selected := if x = b then o else (s.booth x).selected
          input := if x ∈ dropped then .floor else (s.booth x).input
          stack := if x ∈ dropped then (s.booth x).stack.push (.relay b) else (s.booth x).stack
          takers := if x = b then (s.booth b).takers.filter (fun c => c ∉ dropped) else (s.booth x).takers }) ∧
      Told s t (.booth b :: s.droppedRecords dropped) (toOps ((s.booth b).takers.map fun c =>
        if c ∈ dropped then .relayDropped c b .notUnderstood else .relayFollowed c b y)) ∧
      t = { s with
        booths := t.booths, opsPort := t.opsPort, deskAPort := t.deskAPort, deskBPort := t.deskBPort, feed := t.feed }

/-- OUTPUT_A and OUTPUT_B with a seat on air (R38, R7, R41, R79): with the other language free a switch, decided on the
owner of the new language, releases the old one and acquires the new one, the selection changes, and every taker follows
the new language or is dropped to FLOOR; a language another booth owns refuses it with OCCUPIED, the OCCUPIED lamp's timer
is set to 2 s and nothing else changes. Where both outputs name the same language the selection alone changes. -/
def Obligations.OutputKeysSwitch : Prop :=
  (∀ (s : State) (b y n : Nat) (o : Output),
    s.run = .hall → (s.booth b).link.state = .present →
    (o = .b → (s.booth b).granted.map (·.outputB) = some true) → (s.booth b).selected ≠ o →
    (s.booth b).outputLanguage o = some y → (s.booth b).onAirSeat = some n → (s.booth b).language = some y →
    ∃ t, exec (outputKey o b) s = .next t ∧ t.booth b = { s.booth b with selected := o } ∧
      (∀ x, x ≠ b → t.booth x = s.booth x) ∧ Told s t [.booth b] toNone ∧
      t = { s with
        booths := t.booths, opsPort := t.opsPort, deskAPort := t.deskAPort, deskBPort := t.deskBPort, feed := t.feed }) ∧
  (∀ (s : State) (b x y n : Nat) (o : Output) (g : Abilities),
    s.run = .hall → (s.booth b).link.state = .present → (s.booth b).granted = some g →
    (o = .b → g.outputB = true) → (s.booth b).selected ≠ o → (s.booth b).outputLanguage o = some y →
    (s.booth b).onAirSeat = some n → (s.booth b).language = some x → x ≠ y →
    (s.language x).owner = some b → (s.language y).owner = none → (s.booth b).takers.Nodup →
    let dropped := refusing s b y
    ∃ t, exec (outputKey o b) s = .next t ∧
      t.language x = { s.language x with owner := none } ∧ t.language y = { s.language y with owner := some b } ∧
      (∀ k, k ≠ x → k ≠ y → t.language k = s.language k) ∧
      (∀ z, t.booth z =
        { s.booth z with
          selected := if z = b then o else (s.booth z).selected
          input := if z ∈ dropped then .floor else (s.booth z).input
          stack := if z ∈ dropped then (s.booth z).stack.push (.relay b) else (s.booth z).stack
          takers := if z = b then (s.booth b).takers.filter (fun c => c ∉ dropped) else (s.booth z).takers }) ∧
      ((s.language x).channel ≠ (s.language y).channel ∨ (s.language x).channel = none →
        (∀ c, t.channel c =
          if (s.language y).channel = some c then s.ownerChannel y (some b) c else s.ownerChannel x none c) ∧
        Told s t
            (s.ownerRecords x none ++ s.ownerRecords y (some b) ++ .booth b :: s.droppedRecords dropped)
            (toOps (s.ownerNotices x none ++ s.ownerNotices y (some b) ++
              (s.booth b).takers.map fun c =>
                if c ∈ dropped then .relayDropped c b .notUnderstood else .relayFollowed c b y))) ∧
      t = { s with
        languages := t.languages, channels := t.channels, booths := t.booths, opsPort := t.opsPort,
        deskAPort := t.deskAPort, deskBPort := t.deskBPort, feed := t.feed }) ∧
  (∀ (s : State) (b y n z : Nat) (o : Output) (g : Abilities),
    s.run = .hall → (s.booth b).link.state = .present → (s.booth b).granted = some g →
    (o = .b → g.outputB = true) → (s.booth b).selected ≠ o → (s.booth b).outputLanguage o = some y →
    (s.booth b).onAirSeat = some n → (s.booth b).language ≠ some y →
    (s.language y).owner = some z → z ≠ b →
    ∃ t, exec (outputKey o b) s = .next t ∧
      t.booth b = { s.booth b with flash := { (s.booth b).flash with occupied := 2 } } ∧
      (∀ x, x ≠ b → t.booth x = s.booth x) ∧ Told s t [] toNone ∧
      t = { s with
        booths := t.booths, opsPort := t.opsPort, deskAPort := t.deskAPort, deskBPort := t.deskBPort, feed := t.feed })

/-- The checks of SEAT_FORCE_TAKE (R59). -/
def seatForceTakeChecks (s : State) (booth seat : Byte) : List (Bool × Result) :=
  let v := s.booth booth.toNat
  [(badBooth s booth = true ∨ seat = 0x00 ∨ 3 < seat.toNat, .badArg),
   (v.link.state ≠ .present ∨ (v.seat seat.toNat).state = .absent, .wrongState)]

/-- SEAT_FORCE_TAKE (R59, R60): with another seat on air a transfer; with none, going on air; with the seat itself on air,
nothing. With no seat on air it is answered WRONG_STATE and changes nothing, not a lamp, if the booth has no selected output
language (outcome NO_LANGUAGE) or another booth owns it (outcome OCCUPIED). The reply carries the outcome and the seat on air
before. A command that fails a check of R59 is answered with its result alone and changes nothing. -/
def Obligations.SeatForceTakeActs : Prop :=
  (∀ (s : State) (tag booth seat : Byte),
    s.Takes .ops →
    RefusedBy (.seatForceTake .ops tag [booth, seat]) s .ops tag 0x18 (seatForceTakeChecks s booth seat)) ∧
  (∀ (s : State) (tag booth seat : Byte),
    s.Takes .ops → s.boothOk booth = true → 1 ≤ seat.toNat → seat.toNat ≤ 3 →
    let v := s.booth booth.toNat
    v.link.state = .present → (v.seat seat.toNat).state ≠ .absent → v.onAirSeat = none →
    (v.language = none →
      Answers (.seatForceTake .ops tag [booth, seat]) s .ops tag 0x18 ⟨.wrongState, [0x05, 0xFF]⟩) ∧
    (∀ l o, v.language = some l → (s.language l).owner = some o → o ≠ booth.toNat →
      Answers (.seatForceTake .ops tag [booth, seat]) s .ops tag 0x18 ⟨.wrongState, [0x04, 0xFF]⟩)) ∧
  ∀ (s : State) (tag booth seat : Byte),
    s.Takes .ops → s.boothOk booth = true → 1 ≤ seat.toNat → seat.toNat ≤ 3 →
    let b := booth.toNat
    let n := seat.toNat
    let v := s.booth b
    v.link.state = .present → (v.seat n).state ≠ .absent →
    let frame (t : State) : Prop :=
      t = { s with
        languages := t.languages, channels := t.channels, booths := t.booths, opsPort := t.opsPort,
        deskAPort := t.deskAPort, deskBPort := t.deskBPort, feed := t.feed }
    (∀ o, v.onAirSeat = some o → o ≠ n →
      ∃ t, exec (.seatForceTake .ops tag [booth, seat]) s = .next t ∧
        t.booth b = transferred v o n ∧ (∀ x, x ≠ b → t.booth x = s.booth x) ∧
        t.languages = s.languages ∧ t.channels = s.channels ∧
        Answered s t .ops tag 0x18 ⟨.ok, [0x02, BitVec.ofNat 8 o]⟩ [.booth b]
          (toOps [.handoverDone b o n (v.seat o).turn]) ∧ frame t) ∧
    (v.onAirSeat = some n →
      ∃ t, exec (.seatForceTake .ops tag [booth, seat]) s = .next t ∧ t.booths = s.booths ∧
        t.languages = s.languages ∧ t.channels = s.channels ∧
        Answered s t .ops tag 0x18 ⟨.ok, [0x03, seat]⟩ [] toNone ∧ frame t) ∧
    (∀ l, v.onAirSeat = none → v.language = some l →
      ((s.language l).owner = none ∨ (s.language l).owner = some b) →
      ∃ t, exec (.seatForceTake .ops tag [booth, seat]) s = .next t ∧
        t.booth b = v.setSeat n { v.seat n with state := .live, turn := 0, overdue := false } ∧
        (∀ x, x ≠ b → t.booth x = s.booth x) ∧
        t.language l = { s.language l with owner := some b } ∧ (∀ k, k ≠ l → t.language k = s.language k) ∧
        (∀ c, t.channel c = s.ownerChannel l (some b) c) ∧
        Answered s t .ops tag 0x18 ⟨.ok, [0x01, 0xFF]⟩ (s.ownerRecords l (some b) ++ [.booth b])
          (toOps (s.ownerNotices l (some b))) ∧ frame t)

/-- SEAT_FORCE_OFF (R61): the on-air seat goes OFF, a pending request goes, and the language is released with its channel
and notices as for a seat going OFF (R35, R9, R12); the reply carries the seat and its turn counter. A booth out of range is
answered BAD_ARG, one with no seat on air WRONG_STATE, and nothing changes. -/
def Obligations.SeatForceOffActs : Prop :=
  (∀ (s : State) (tag booth : Byte),
    s.Takes .ops →
    RefusedBy (.seatForceOff .ops tag [booth]) s .ops tag 0x19
      [(badBooth s booth = true, .badArg), ((s.booth booth.toNat).onAirSeat = none, .wrongState)]) ∧
  ∀ (s : State) (tag booth : Byte) (n : Nat),
    s.Takes .ops → s.boothOk booth = true → (s.booth booth.toNat).onAirSeat = some n →
    let b := booth.toNat
    let v := s.booth b
    ∃ t, exec (.seatForceOff .ops tag [booth]) s = .next t ∧
      t.booth b = { v.setSeat n { v.seat n with state := .off, overdue := false } with handover := none } ∧
      (∀ x, x ≠ b → t.booth x = s.booth x) ∧
      s.Released t b v.language ∧
      (∀ c, t.channel c = s.releasedChannel b v.language c) ∧
      Answered s t .ops tag 0x19 ⟨.ok, byte1 n ++ byte2 (v.seat n).turn⟩ (.booth b :: s.releaseRecords b v.language)
        (toOps (s.releaseNotices b v.language)) ∧
      t = { s with
        languages := t.languages, channels := t.channels, booths := t.booths, opsPort := t.opsPort,
        deskAPort := t.deskAPort, deskBPort := t.deskBPort, feed := t.feed }

/-- HANDOVER_LAPSE (R56) and FLASH_TIMER_EXPIRY (R41): a pending request goes with HANDOVER_LAPSED, naming the requester and
the on-air seat, and a booth without one is not touched (R57); a lamp's flash timer stops. R56 makes a request lapse when
its window reaches 0, and R41 lets a timer run for 2 s: that the row HANDOVER_LAPSE acts whatever window is left is the
model's choice (log entry 13), and that a flash timer ends by its own row alone is the model's choice too (log entry 15). -/
def Obligations.BoothTimersRunOut : Prop :=
  (∀ (s : State) (b : Nat), s.run = .hall → (s.booth b).handover = none → Ignored (.handoverLapse b) s) ∧
  (∀ (s : State) (b : Nat) (r : Request),
    s.run = .hall → (s.booth b).handover = some r →
    ∃ t, exec (.handoverLapse b) s = .next t ∧
      t.booth b = { s.booth b with handover := none } ∧ (∀ x, x ≠ b → t.booth x = s.booth x) ∧
      Told s t [.booth b] (toOps [.handoverLapsed b r.requester (s.booth b).onAirSeat]) ∧
      t = { s with
        booths := t.booths, opsPort := t.opsPort, deskAPort := t.deskAPort, deskBPort := t.deskBPort, feed := t.feed }) ∧
  (∀ (s : State) (b : Nat) (lamp : FlashLamp),
    s.run = .hall →
    ∃ t, exec (.flashTimerExpiry b lamp) s = .next t ∧
      (t.booth b).flash.get lamp = 0 ∧
      (∀ other, other ≠ lamp → (t.booth b).flash.get other = (s.booth b).flash.get other) ∧
      t.booth b = { s.booth b with flash := (t.booth b).flash } ∧ (∀ x, x ≠ b → t.booth x = s.booth x) ∧
      Told s t [] toNone ∧
      t = { s with
        booths := t.booths, opsPort := t.opsPort, deskAPort := t.deskAPort, deskBPort := t.deskBPort, feed := t.feed })

-- Chapter 4: relay

/-- The booths after booth `x` has selected input `i` in place of the one it had (R70, R71, R75): `x` leaves the taker set
of its former source, joins that of its new one, and keeps the input left behind on its stack when `push` says so. -/
def Selected (s t : State) (x : Nat) (i : Input) (stack : InputStack) : Prop :=
  ∀ y, t.booth y =
    { s.booth y with
      input := if y = x then i else (s.booth y).input
      stack := if y = x then stack else (s.booth y).stack
      takers :=
        let left := if (s.booth x).input = .relay y then setDel x (s.booth y).takers else (s.booth y).takers
        if i = .relay y then setAdd x left else left }

/-- Booth `x` may select RELAY(b) (R69): another booth, PRESENT, not in `x`'s taker tree, within the relay depth limit,
with a language that `x` accepts. -/
def MayRelay (s : State) (x b : Nat) : Prop :=
  b ≠ x ∧ (s.booth b).link.state = .present ∧ s.inTree chainFuel x b = false ∧
    s.depth chainFuel b + 1 + s.height chainFuel x ≤ s.profile.relayDepth ∧
    ∃ l, (s.booth b).language = some l ∧ l ∈ (s.booth x).config.accepted

/-- FLOOR_SEL and RELAY_SEL from a PRESENT booth with relay keys (R69, R70, R71, R73): the input is selected and the one
left behind is pushed; a RELAY_SEL that fails a check of R69 leaves the input as it is and sets the REFUSAL lamp's timer to
2 s. The selection of the input held, a booth number of 0 or above 16, and a key of a booth that is not PRESENT or without
the ability (R68), are ignored. -/
def Obligations.RelayKeysSelect : Prop :=
  (∀ (s : State) (x : Nat),
    s.run = .hall →
    ((s.booth x).link.state ≠ .present ∨ (s.booth x).granted.map (·.relay) ≠ some true →
      Ignored (.floorSel x) s ∧ Ignored (.previous x) s ∧ ∀ b, Ignored (.relaySel x b) s) ∧
    ((s.booth x).input = .floor → Ignored (.floorSel x) s) ∧
    (∀ b, b = 0 ∨ 16 < b ∨ (s.booth x).input = .relay b → Ignored (.relaySel x b) s)) ∧
  (∀ (s : State) (x : Nat) (g : Abilities) (i : Input),
    s.run = .hall → (s.booth x).link.state = .present → (s.booth x).granted = some g → g.relay = true →
    (s.booth x).input ≠ i → (∀ b, i = .relay b → 1 ≤ b ∧ b ≤ 16 ∧ MayRelay s x b) →
    ∃ t, exec (match i with | .floor => .floorSel x | .relay b => .relaySel x b) s = .next t ∧
      Selected s t x i ((s.booth x).stack.push (s.booth x).input) ∧
      Told s t (s.selectionRecords x i) toNone ∧
      t = { s with
        booths := t.booths, opsPort := t.opsPort, deskAPort := t.deskAPort, deskBPort := t.deskBPort, feed := t.feed }) ∧
  (∀ (s : State) (x b : Nat) (g : Abilities),
    s.run = .hall → (s.booth x).link.state = .present → (s.booth x).granted = some g → g.relay = true →
    1 ≤ b → b ≤ 16 → (s.booth x).input ≠ .relay b → ¬ MayRelay s x b →
    ∃ t, exec (.relaySel x b) s = .next t ∧
      t.booth x = { s.booth x with flash := { (s.booth x).flash with refusal := 2 } } ∧
      (∀ y, y ≠ x → t.booth y = s.booth y) ∧ Told s t [] toNone ∧
      t = { s with
        booths := t.booths, opsPort := t.opsPort, deskAPort := t.deskAPort, deskBPort := t.deskBPort, feed := t.feed })

/-- PREVIOUS (R76): the stack is popped; an entry that can be selected becomes the input without a push, the entry held
already changes nothing more, and one that is refused flashes the REFUSAL lamp. -/
def Obligations.PreviousPops : Prop :=
  ∀ (s : State) (x : Nat) (g : Abilities),
    s.run = .hall → (s.booth x).link.state = .present → (s.booth x).granted = some g → g.relay = true →
    let v := s.booth x
    let popped : InputStack := ⟨v.stack.e2, v.stack.e3, v.stack.e4, v.stack.e4⟩
    let frame (t : State) : Prop :=
      t = { s with
        booths := t.booths, opsPort := t.opsPort, deskAPort := t.deskAPort, deskBPort := t.deskBPort, feed := t.feed }
    (v.input ≠ v.stack.e1 → (∀ b, v.stack.e1 = .relay b → MayRelay s x b) →
      ∃ t, exec (.previous x) s = .next t ∧ Selected s t x v.stack.e1 popped ∧
        Told s t (s.selectionRecords x v.stack.e1) toNone ∧ frame t) ∧
    (v.input = v.stack.e1 →
      ∃ t, exec (.previous x) s = .next t ∧ t.booth x = { v with stack := popped } ∧
        (∀ y, y ≠ x → t.booth y = s.booth y) ∧ Told s t [] toNone ∧ frame t) ∧
    (∀ b, v.stack.e1 = .relay b → v.input ≠ .relay b → ¬ MayRelay s x b →
      ∃ t, exec (.previous x) s = .next t ∧
        t.booth x = { v with stack := popped, flash := { v.flash with refusal := 2 } } ∧
        (∀ y, y ≠ x → t.booth y = s.booth y) ∧ Told s t [] toNone ∧ frame t)

/-- The cause with which a selection of RELAY(b) by booth `x` that may not be made is refused: the first check of R69 that
fails, in the order of its table. -/
def relayRefusal (s : State) (x b : Nat) : Cause :=
  if b = x then .self
  else if (s.booth b).link.state ≠ .present then .notPresent
  else if s.inTree chainFuel x b = true then .loop
  else if s.profile.relayDepth < s.depth chainFuel b + 1 + s.height chainFuel x then .tooDeep
  else .notUnderstood

/-- BOOTH_INPUT (R69, R74): a selection for a PRESENT booth, answered with SELECTED and the input before; the input held
already is answered UNCHANGED and changes nothing; a selection that fails a check of R69 is answered WRONG_STATE with that
check's cause, one for a booth that is not PRESENT with the cause TAKER_ABSENT, an argument out of range BAD_ARG, and none of
them changes anything. -/
def Obligations.BoothInputSelects : Prop :=
  (∀ (s : State) (tag booth inputByte : Byte),
    s.Takes .ops →
    RefusedBy (.boothInput .ops tag [booth, inputByte]) s .ops tag 0x17
      [(badBooth s booth = true ∨ 16 < inputByte.toNat, .badArg)]) ∧
  ∀ (s : State) (tag booth inputByte : Byte) (i : Input),
    s.Takes .ops → s.boothOk booth = true → inputByte.toNat ≤ 16 → i = (if inputByte = 0x00 then .floor else .relay inputByte.toNat) →
    let x := booth.toNat
    let before := byte1 (s.booth x).input.code
    let frame (t : State) : Prop :=
      t = { s with
        booths := t.booths, opsPort := t.opsPort, deskAPort := t.deskAPort, deskBPort := t.deskBPort, feed := t.feed }
    ((s.booth x).link.state = .present → (s.booth x).input = i →
      ∃ t, exec (.boothInput .ops tag [booth, inputByte]) s = .next t ∧ t.booths = s.booths ∧
        Answered s t .ops tag 0x17 ⟨.ok, 0x07 :: before⟩ [] toNone ∧ frame t) ∧
    ((s.booth x).link.state = .present → (s.booth x).input ≠ i → (∀ b, i = .relay b → MayRelay s x b) →
      ∃ t, exec (.boothInput .ops tag [booth, inputByte]) s = .next t ∧
        Selected s t x i ((s.booth x).stack.push (s.booth x).input) ∧
        Answered s t .ops tag 0x17 ⟨.ok, 0x06 :: before⟩ (s.selectionRecords x i) toNone ∧ frame t) ∧
    (∀ b, (s.booth x).link.state = .present → i = .relay b → (s.booth x).input ≠ i → ¬ MayRelay s x b →
      s.relayCheck x b = some (relayRefusal s x b) ∧
      ∃ t, exec (.boothInput .ops tag [booth, inputByte]) s = .next t ∧ t.booths = s.booths ∧
        Answered s t .ops tag 0x17 ⟨.wrongState, byte1 (relayRefusal s x b).code ++ before⟩ [] toNone ∧ frame t) ∧
    ((s.booth x).link.state ≠ .present →
      ∃ t, exec (.boothInput .ops tag [booth, inputByte]) s = .next t ∧ t.booths = s.booths ∧
        Answered s t .ops tag 0x17 ⟨.wrongState, byte1 Cause.takerAbsent.code ++ before⟩ [] toNone ∧ frame t)

-- Chapter 5: the booth link

/-- The lamps of a PRESENT booth's console, as R40, R51 and R84 say what lights each and R99 how it is sent. The lamps of an
ABSENT seat are off. -/
def lampsShown (s : State) (b : Nat) : LampSet :=
  let v := s.booth b
  let seats (lit : Nat → Bool) : List LampLevel :=
    [1, 2, 3].map fun n => if lit n = true ∧ (v.seat n).state ≠ .absent then .lit else .off
  let lit (on : Bool) : LampLevel := if on then .lit else .off
  let flash (seconds : Nat) : LampLevel := if seconds = 0 then .off else .flashing
  { mic := seats fun n => (v.seat n).state = .live ∨ (v.seat n).state = .muted
    mute := seats fun n => (v.seat n).state = .muted
    turn := seats fun n => (v.seat n).overdue
    request := seats fun n => v.handover.any fun r => r.requester = n ∨ v.onAirSeat = some n
    outputA := lit (v.selected = .a)
    outputB := lit (v.selected = .b)
    occupied := flash v.flash.occupied
    noLanguage := flash v.flash.noLanguage
    refusal := flash v.flash.refusal
    floor := lit (v.input = .floor)
    relayKeys := (List.range' 1 16).map fun x => lit (v.input = .relay x)
    sourceSilent :=
      match v.input with
      | .floor => .off
      | .relay x => lit ([1, 2, 3].all fun n => ((s.booth x).seat n).state ≠ .live) }

/-- BOOTH_SLOT (R87, R91, R93, R94): the message of the booth's link state is on the line, a GRANT counts as a grant poll,
and nothing else changes; the slot of an unfitted booth is silent; the slot of booth 1, before which the cycle ends (log
entry 14), sends booth 1 the message of the link state the cycle end leaves it. A POLL carries the lamps of R40, R51 and R84,
and every lamp of a booth that is not PRESENT is off. An answer that comes while the line is not in its booth's slot is not
received and changes nothing. -/
def Obligations.BoothSlotSends : Prop :=
  (∀ (s : State) (b : Nat),
    s.run = .hall → s.boothFitted b = true → b ≠ 1 →
    let k := (s.booth b).link
    ∃ t, exec (.boothSlot b) s = .next t ∧
      t.line =
        (match k.state with
         | .absent => some (b, .joinProbe)
         | .negotiating => k.grant.map fun g => (b, .grant g)
         | .present => some (b, .poll k.lastSequence (s.lamps b))
         | .faultWait => none) ∧
      t.booth b =
        { s.booth b with
          link := { k with grantPolls := if k.state = .negotiating then k.grantPolls + 1 else k.grantPolls } } ∧
      (∀ x, x ≠ b → t.booth x = s.booth x) ∧ Told s t [] toNone ∧
      t = { s with
        booths := t.booths, opsPort := t.opsPort, deskAPort := t.deskAPort, deskBPort := t.deskBPort,
        line := t.line, feed := t.feed }) ∧
  (∀ (s : State) (b : Nat),
    s.run = .hall → s.boothFitted b = false → b ≠ 1 →
    ∃ t, exec (.boothSlot b) s = .next t ∧ t = { s with line := none, feed := t.feed }) ∧
  (∀ (s : State),
    s.run = .hall → s.boothFitted 1 = true →
    let k := (s.booth 1).link
    ∃ t, exec (.boothSlot 1) s = .next t ∧
      t.line =
        (match k.state with
         | .absent => some (1, .joinProbe)
         | .negotiating => k.grant.map fun g => (1, .grant g)
         | .present => some (1, .poll k.lastSequence (lampsShown s 1))
         | .faultWait => if k.waitRemaining ≤ 1 then some (1, .joinProbe) else none) ∧
      t.booth 1 =
        { s.booth 1 with
          link :=
            match k.state with
            | .absent | .present => k
            | .negotiating => { k with grantPolls := k.grantPolls + 1 }
            | .faultWait =>
              if k.waitRemaining ≤ 1 then { k with state := .absent, waitRemaining := 0 }
              else { k with waitRemaining := k.waitRemaining - 1 } }) ∧
  (∀ (s : State) (b : Nat),
    ((s.booth b).link.state = .present → s.lamps b = lampsShown s b) ∧
    ((s.booth b).link.state ≠ .present →
      s.lamps b =
        ⟨[.off, .off, .off], [.off, .off, .off], [.off, .off, .off], [.off, .off, .off], .off, .off, .off, .off, .off,
          .off, List.replicate 16 .off, .off⟩)) ∧
  (∀ (s : State) (b : Nat) (i : Instr) (advert : Abilities) (sequence : Fin 2) (events : List KeyEvent),
    s.run = .hall → s.line.map (·.1) ≠ some b →
    i = .advertise b advert ∨ i = .grantAck b advert ∨ i = .statusReply b sequence events ∨ i = .slotUnanswered b →
    ∃ t, exec i s = .next t ∧ t = { s with feed := t.feed })

/-- The loss of booth `b` (R97, R98, R46, R82), but for its link record and the ports: every seat OFF, no abilities, output
A, no request, every flash timer stopped, the language released, every taker dropped to FLOOR, the booth out of its source's
taker set, and every port's presence latch of it clear. -/
def LosesBooth (s t : State) (b : Nat) : Prop :=
  let v := s.booth b
  (∀ n, 1 ≤ n → n ≤ 3 → (t.booth b).seat n = ⟨.off, 0, false, (v.seat n).liveMinutes⟩) ∧
  (t.booth b).granted = none ∧ (t.booth b).selected = .a ∧ (t.booth b).handover = none ∧
  (t.booth b).flash = ⟨0, 0, 0⟩ ∧ (t.booth b).config = v.config ∧
  (t.booth b).input = .floor ∧ (t.booth b).stack = .initial ∧ (t.booth b).takers = [] ∧
  (∀ x, x ≠ b → t.booth x =
    { s.booth x with
      input := if x ∈ v.takers then .floor else (s.booth x).input
      stack := if x ∈ v.takers then (s.booth x).stack.push (.relay b) else (s.booth x).stack
      takers := if v.input = .relay x then setDel b (s.booth x).takers else (s.booth x).takers }) ∧
  (v.onAirSeat ≠ none → s.Released t b v.language ∧ ∀ c, t.channel c = s.releasedChannel b v.language c) ∧
  (v.onAirSeat = none → t.languages = s.languages ∧ t.channels = s.channels) ∧
  (∀ p, (t.port p).presenceOf b = false) ∧
  (∀ p y, y ≠ b → (t.port p).presenceOf y = (s.port p).presenceOf y) ∧
  t = { s with
    languages := t.languages, channels := t.channels, booths := t.booths, opsPort := t.opsPort,
    deskAPort := t.deskAPort, deskBPort := t.deskBPort, line := none, feed := t.feed }

/-- The records of the loss of booth `b` (R190, R192): its own, those of the release, and those of the takers dropped and of
the source left. -/
def lossRecords (s : State) (b : Nat) : List RecordName :=
  let v := s.booth b
  .booth b ::
    ((if v.onAirSeat = none then [] else s.releaseRecords b v.language) ++ s.droppedRecords v.takers ++ s.leftRecords b)

/-- The notices of the loss of booth `b` in their order (R97): BOOTH_LOST, those of the release, and RELAY_DROPPED for each
taker in ascending number. -/
def lossNotices (s : State) (b : Nat) (cause : Cause) : List Notice :=
  let v := s.booth b
  .boothLost b cause v.onAirSeat ::
    ((if v.onAirSeat = none then [] else s.releaseNotices b v.language) ++
      v.takers.map fun x => .relayDropped x b .sourceLost)

/-- What befell the ports but for their presence and fault latches: the notices to the operations port, and reservations
on changed records cleared. -/
def ToldButLatches (s t : State) (records : List RecordName) (notices : List Notice) : Prop :=
  ∀ p, { t.port p with presence := (s.port p).presence, faults := (s.port p).faults } =
    ((s.port p).clearAll records).told (toOps notices p)

/-- ADVERTISE in the slot of its booth (R89, R90, R91, R98, R101): from an ABSENT booth a possible one is negotiated with the
grant computed from it, an impossible one puts the booth in FAULT_WAIT for 200 cycles with JOIN_FAULT and every port's fault
latch set; from a PRESENT booth it is a restarted console, which is lost with the cause RESTARTED and judged in the same
step; from a NEGOTIATING booth it is no acknowledgement. That the last sequence of a lost booth becomes 0 is the model's
choice (log entry 18). -/
def Obligations.AdvertiseJudged : Prop :=
  ∀ (s : State) (b : Nat) (a : Abilities),
    s.Awaits b → s.boothFitted b = true →
    let v := s.booth b
    let k := v.link
    let granted : Abilities := { a with seats := min a.seats s.profile.seatCap }
    let faulted (t : State) : Prop :=
      (∀ p, (t.port p).faultOf b = true) ∧ (∀ p y, y ≠ b → (t.port p).faultOf y = (s.port p).faultOf y)
    (k.state = .absent → 1 ≤ a.seats → a.seats ≤ 3 →
      ∃ t, exec (.advertise b a) s = .next t ∧
        t.booth b = { v with link := { k with state := .negotiating, grant := some granted, grantPolls := 0 } } ∧
        (∀ x, x ≠ b → t.booth x = s.booth x) ∧ Told s t [.booth b] toNone ∧
        t = { s with
          booths := t.booths, opsPort := t.opsPort, deskAPort := t.deskAPort, deskBPort := t.deskBPort, line := none,
          feed := t.feed }) ∧
    (k.state = .absent → a.seats = 0 ∨ 3 < a.seats →
      ∃ t, exec (.advertise b a) s = .next t ∧
        t.booth b = { v with link := { k with state := .faultWait, waitRemaining := 200 } } ∧
        (∀ x, x ≠ b → t.booth x = s.booth x) ∧
        faulted t ∧
        (∀ p, { t.port p with faults := (s.port p).faults } =
          ((s.port p).clearOn (.booth b)).told (toOps [.joinFault b a.seats] p)) ∧
        t = { s with
          booths := t.booths, opsPort := t.opsPort, deskAPort := t.deskAPort, deskBPort := t.deskBPort, line := none,
          feed := t.feed }) ∧
    (k.state = .present → v.takers.Nodup → b ∉ v.takers → 1 ≤ a.seats → a.seats ≤ 3 →
      ∃ t, exec (.advertise b a) s = .next t ∧ LosesBooth s t b ∧
        (t.booth b).link =
          { k with state := .negotiating, grant := some granted, grantPolls := 0, missed := 0, lastSequence := 0 } ∧
        (∀ p y, (t.port p).faultOf y = (s.port p).faultOf y) ∧
        ToldButLatches s t (lossRecords s b) (lossNotices s b .restarted)) ∧
    (k.state = .present → v.takers.Nodup → b ∉ v.takers → a.seats = 0 ∨ 3 < a.seats →
      ∃ t, exec (.advertise b a) s = .next t ∧ LosesBooth s t b ∧
        (t.booth b).link =
          { k with state := .faultWait, grant := none, waitRemaining := 200, missed := 0, lastSequence := 0 } ∧
        faulted t ∧
        ToldButLatches s t (lossRecords s b) (lossNotices s b .restarted ++ [.joinFault b a.seats])) ∧
    (k.state = .negotiating → exec (.advertise b a) s = exec (.slotUnanswered b) s)

/-- GRANT_ACK equal to the grant (R91, R92, R45): the booth joins, PRESENT, with its seats set up and BOOTH_JOINED; one
that differs is no acknowledgement, and after the second grant poll the booth goes to ABSENT. That the grant and the grant
polls then stay in the ABSENT record is the model's choice (log entry 40). -/
def Obligations.GrantAckJoins : Prop :=
  ∀ (s : State) (b : Nat) (taken g : Abilities),
    s.Awaits b → s.boothFitted b = true → (s.booth b).link.state = .negotiating → (s.booth b).link.grant = some g →
    let v := s.booth b
    (taken = g →
      ∃ t, exec (.grantAck b taken) s = .next t ∧
        (∀ n, 1 ≤ n → n ≤ 3 → (t.booth b).seat n =
          ⟨if n ≤ g.seats then .off else .absent, 0, false, (v.seat n).liveMinutes⟩) ∧
        t.booth b =
          { v with
            link := { v.link with state := .present, missed := 0, lastSequence := 1 }
            granted := some g
            selected := .a
            handover := none
            stack := .initial
            seats := (t.booth b).seats } ∧
        (∀ x, x ≠ b → t.booth x = s.booth x) ∧ Told s t [.booth b] (toOps [.boothJoined b g]) ∧
        t = { s with
          booths := t.booths, opsPort := t.opsPort, deskAPort := t.deskAPort, deskBPort := t.deskBPort, line := none,
          feed := t.feed }) ∧
    (taken ≠ g →
      ∃ t, exec (.grantAck b taken) s = .next t ∧
        t.booth b =
          (if 2 ≤ v.link.grantPolls then { v with link := { v.link with state := .absent } } else v) ∧
        (∀ x, x ≠ b → t.booth x = s.booth x) ∧
        Told s t (if 2 ≤ v.link.grantPolls then [.booth b] else []) toNone ∧
        t = { s with
          booths := t.booths, opsPort := t.opsPort, deskAPort := t.deskAPort, deskBPort := t.deskBPort, line := none,
          feed := t.feed })

/-- The row of the table for a key event of booth `b`; an event of a kind that R96 does not list has none. -/
def keyRow (b : Nat) : KeyEvent → Option Instr
  | .mic n => some (.mic b n)
  | .muteDown n => some (.muteDown b n)
  | .muteUp n => some (.muteUp b n)
  | .outputA => some (.outputA b)
  | .outputB => some (.outputB b)
  | .floorSel => some (.floorSel b)
  | .relaySel x => some (.relaySel b x)
  | .previous => some (.previous b)
  | .other _ => none

/-- The state after some commands or events, one after another; none if one of them does not complete. -/
def runRows : List Instr → State → Option State
  | [], s => some s
  | c :: rest, s =>
    match exec c s with
    | .next t => runRows rest t
    | .fault _ => none
    | .refused _ => none

/-- STATUS_REPLY in the slot of its PRESENT booth (R95, R96): a repeated sequence bit clears the missed polls and delivers
nothing; a new one has the effect of the rows of its key events, one after another in their order, each followed by the feed
link, and is then the last taken; one with more events than granted is malformed and counts as an unanswered slot. That the
events of one answer follow each other within one step, where R96 lets other events come between them, is the model's choice
(log entry 16). -/
def Obligations.StatusReplyTaken : Prop :=
  ∀ (s : State) (b : Nat) (sequence : Fin 2) (events : List KeyEvent) (g : Abilities),
    s.Awaits b → s.boothFitted b = true → (s.booth b).link.state = .present → (s.booth b).link.grant = some g →
    let k := (s.booth b).link
    (events.length ≤ g.events → sequence = k.lastSequence →
      ∃ t, exec (.statusReply b sequence events) s = .next t ∧
        t.booth b = { s.booth b with link := { k with missed := 0 } } ∧ (∀ x, x ≠ b → t.booth x = s.booth x) ∧
        Told s t [] toNone ∧
        t = { s with
          booths := t.booths, opsPort := t.opsPort, deskAPort := t.deskAPort, deskBPort := t.deskBPort, line := none,
          feed := t.feed }) ∧
    (events.length ≤ g.events → sequence ≠ k.lastSequence →
      ∃ u t, runRows (events.filterMap (keyRow b)) s = some u ∧
        exec (.statusReply b sequence events) s = .next t ∧
        t.booth b = { u.booth b with link := { k with missed := 0, lastSequence := sequence } } ∧
        (∀ x, x ≠ b → t.booth x = u.booth x) ∧ (∀ p, t.port p = u.port p) ∧ t.feed = u.feedWork.feed ∧
        t = { u with
          booths := t.booths, opsPort := t.opsPort, deskAPort := t.deskAPort, deskBPort := t.deskBPort, line := none,
          feed := t.feed }) ∧
    (g.events < events.length → exec (.statusReply b sequence events) s = exec (.slotUnanswered b) s)

/-- SLOT_UNANSWERED in the slot of its booth (R91, R95, R97, R46, R82): a NEGOTIATING booth goes to ABSENT after its second
grant poll, an ABSENT one stays as it is, the missed polls of a PRESENT one are counted, and the third in a row loses it: it
is ABSENT with every seat OFF, holds no abilities and no language, and every taker of it hears FLOOR. That the last sequence
of a lost booth becomes 0 (log entry 18), and that the grant and the grant polls stay in the record of a failed negotiation
(log entry 40), are the model's choices. -/
def Obligations.MissedPollsLoseBooth : Prop :=
  ∀ (s : State) (b : Nat),
    s.Awaits b → s.boothFitted b = true →
    let v := s.booth b
    (v.link.state = .absent →
      ∃ t, exec (.slotUnanswered b) s = .next t ∧ t = { s with line := none, feed := t.feed }) ∧
    (v.link.state = .negotiating →
      ∃ t, exec (.slotUnanswered b) s = .next t ∧
        t.booth b =
          (if 2 ≤ v.link.grantPolls then { v with link := { v.link with state := .absent } } else v) ∧
        (∀ x, x ≠ b → t.booth x = s.booth x) ∧
        Told s t (if 2 ≤ v.link.grantPolls then [.booth b] else []) toNone ∧
        t = { s with
          booths := t.booths, opsPort := t.opsPort, deskAPort := t.deskAPort, deskBPort := t.deskBPort, line := none,
          feed := t.feed }) ∧
    (v.link.state = .present → v.link.missed < 2 →
      ∃ t, exec (.slotUnanswered b) s = .next t ∧
        t.booth b = { v with link := { v.link with missed := v.link.missed + 1 } } ∧
        (∀ x, x ≠ b → t.booth x = s.booth x) ∧ Told s t [] toNone ∧
        t = { s with
          booths := t.booths, opsPort := t.opsPort, deskAPort := t.deskAPort, deskBPort := t.deskBPort, line := none,
          feed := t.feed }) ∧
    (v.link.state = .present → 2 ≤ v.link.missed → v.takers.Nodup → b ∉ v.takers →
      ∃ t, exec (.slotUnanswered b) s = .next t ∧ LosesBooth s t b ∧
        (t.booth b).link = { v.link with state := .absent, grant := none, missed := 0, lastSequence := 0 } ∧
        (∀ p y, (t.port p).faultOf y = (s.port p).faultOf y) ∧
        ToldButLatches s t (lossRecords s b) (lossNotices s b .noAnswer))

/-- FAULT_WAIT_END, and the slot of booth 1, which comes at the end of a cycle (R93): a booth in FAULT_WAIT goes to ABSENT;
at a cycle end every other booth in FAULT_WAIT has its wait decreased by 1 and goes to ABSENT when it reaches 0, and no
other booth but booth 1 (of which BoothSlotSends speaks) is touched. FAULT_WAIT_END does not touch a booth in another state.
R93 ends a wait when it reaches 0 at the end of a cycle:
that the cycle ends with the slot of booth 1, and that the row FAULT_WAIT_END acts whatever wait is left, are the model's
choices (log entry 14). -/
def Obligations.FaultWaitsEnd : Prop :=
  (∀ (s : State) (b : Nat),
    s.run = .hall → (s.booth b).link.state ≠ .faultWait → Ignored (.faultWaitEnd b) s) ∧
  (∀ (s : State) (b : Nat),
    s.run = .hall → (s.booth b).link.state = .faultWait →
    ∃ t, exec (.faultWaitEnd b) s = .next t ∧
      t.booth b = { s.booth b with link := { (s.booth b).link with state := .absent, waitRemaining := 0 } } ∧
      (∀ x, x ≠ b → t.booth x = s.booth x) ∧ Told s t [.booth b] toNone ∧
      t = { s with
        booths := t.booths, opsPort := t.opsPort, deskAPort := t.deskAPort, deskBPort := t.deskBPort, feed := t.feed }) ∧
  (∀ (s : State),
    s.run = .hall →
    ∃ t, exec (.boothSlot 1) s = .next t ∧
      (∀ x, 2 ≤ x → x ≤ 16 →
        let k := (s.booth x).link
        t.booth x =
          if k.state = .faultWait then
            { s.booth x with
              link :=
                if k.waitRemaining ≤ 1 then { k with state := .absent, waitRemaining := 0 }
                else { k with waitRemaining := k.waitRemaining - 1 } }
          else s.booth x) ∧
      Told s t
        (((List.range' 1 16).filter fun x =>
          (s.booth x).link.state = .faultWait ∧ (s.booth x).link.waitRemaining ≤ 1).map .booth) toNone ∧
      t = { s with
        booths := t.booths, opsPort := t.opsPort, deskAPort := t.deskAPort, deskBPort := t.deskBPort,
        line := t.line, feed := t.feed })

-- Chapters 9 to 11: the feed link, the clock, reading and the ports

/-- The feed source of a channel that is no redirect, by the rows of R20. -/
def boundFeed (s : State) (v : Channel) : FeedSource :=
  match v.state with
  | .mapped _ => if v.floorFill then .floor else .silent
  | .live l =>
    match (s.language l).owner with
    | some b => if [1, 2, 3].any fun n => ((s.booth b).seat n).state = .live then .booth b else .silent
    | none => .silent
  | .free | .redirect _ _ => .silent

/-- The feed table that the records stand for (R20, R21): channel 0 carries the floor, a FREE channel silence, a MAPPED one
the floor or silence by its floor-fill flag, a LIVE one its owner's booth while a seat of it is LIVE, each with its
language's code; a REDIRECT channel carries its target's source and code, with the target; each booth's crosspoint is its
input. -/
def feedContents (s : State) : FeedTable :=
  let code (v : Channel) : List Byte := (v.state.language.map fun l => (s.language l).code).getD []
  ⟨⟨.floor, [], 0⟩ :: (List.range' 1 24).map fun c =>
      match (s.channel c).state with
      | .redirect target _ => ⟨boundFeed s (s.channel target), code (s.channel target), target⟩
      | .free | .mapped _ | .live _ => ⟨boundFeed s (s.channel c), code (s.channel c), 0⟩,
    (List.range' 1 16).map fun b => (s.booth b).input⟩

/-- FEED_REPEAT and FEED_TRANSMISSION_END (R22): when the 1 s repetition comes, or the transmission in progress ends with
a send due, a transmission of the table as it stands starts as soon as none is in progress, and the flag is cleared. The
table is the one R20 and R21 give. -/
def Obligations.FeedTransmits : Prop :=
  (∀ s : State, s.feedTable = feedContents s) ∧
  ∀ (s : State), s.run = .hall →
    (∃ t, exec .feedRepeat s = .next t ∧
      t.feed = (if s.feed.sending then { s.feed with due := true } else ⟨s.feedTable, false, true⟩) ∧
      t = { s with feed := t.feed }) ∧
    (∃ t, exec .feedTransmissionEnd s = .next t ∧
      t.feed =
        (if s.feed.due = true ∨ s.feedTable ≠ s.feed.last then ⟨s.feedTable, false, true⟩
         else { s.feed with sending := false }) ∧
      t = { s with feed := t.feed })

/-- CLOCK_SET (R200) and DAY_CLOSE (R201): the hall minute becomes the value given, the second count 0 and the clock-suspect
flag clear, and the reply carries the minute before and after, while a desk port is answered DENIED and a payload of another
length BAD_ARG; the hall day increases by 1, saturating at 65,535, and the reply carries the day after. -/
def Obligations.ClockCommandsWrite : Prop :=
  (∀ (s : State) (tag a b c : Byte),
    s.Takes .ops →
    ∃ t, exec (.clockSet .ops tag [a, b, c]) s = .next t ∧
      t.minute = a.toNat * 65536 + b.toNat * 256 + c.toNat ∧ t.second = 0 ∧ t.suspect = false ∧
      Answered s t .ops tag 0x1C ⟨.ok, byte3 s.minute ++ [a, b, c]⟩ [] toNone ∧
      t = { s with
        minute := t.minute, second := t.second, suspect := t.suspect, opsPort := t.opsPort,
        deskAPort := t.deskAPort, deskBPort := t.deskBPort, feed := t.feed }) ∧
  (∀ (s : State) (p : Port) (tag : Byte) (payload : List Byte),
    s.Takes p → p ≠ .ops ∨ payload.length ≠ 3 →
    ∃ t, exec (.clockSet p tag payload) s = .next t ∧
      Answered s t p tag 0x1C ⟨if p = .ops then .badArg else .denied, []⟩ [] toNone ∧
      t = { s with
        opsPort := t.opsPort, deskAPort := t.deskAPort, deskBPort := t.deskBPort, feed := t.feed }) ∧
  (∀ (s : State) (tag : Byte),
    s.Takes .ops → s.day ≤ 65535 →
    ∃ t, exec (.dayClose .ops tag []) s = .next t ∧
      t.day = (if s.day = 65535 then 65535 else s.day + 1) ∧
      Answered s t .ops tag 0x1D ⟨.ok, byte2 t.day⟩ [] toNone ∧
      t = { s with
        day := t.day, opsPort := t.opsPort, deskAPort := t.deskAPort, deskBPort := t.deskBPort, feed := t.feed })

/-- Channel `x` after a second event (R18): a REDIRECT channel's remaining hold decreases by 1, and the channel is FREE
when it reaches 0. -/
def secondChannel (s : State) (x : Nat) : Channel :=
  match (s.channel x).state with
  | .redirect target hold =>
    { s.channel x with state := if hold ≤ 1 then .free else .redirect target (hold - 1) }
  | _ => s.channel x

/-- Booth `x` after a second event (R56): a pending request's window decreases by 1, and it lapses when it reaches 0. -/
def secondBooth (s : State) (x : Nat) : Booth :=
  match (s.booth x).handover with
  | none => s.booth x
  | some r =>
    { s.booth x with handover := if r.window ≤ 1 then none else some { r with window := r.window - 1 } }

/-- A seat of booth `v` after a minute tick (R42, R43): an on-air seat counts a minute of its turn and a live-minute, both
saturating, and is overdue once its turn reaches the booth's turn limit. -/
def minuteSeat (v : Booth) (n : Nat) : Seat :=
  let seat := v.seat n
  if seat.onAir then
    { seat with
      turn := min 65535 (seat.turn + 1)
      liveMinutes := min 4294967295 (seat.liveMinutes + 1)
      overdue := seat.overdue || decide (v.config.turnLimit ≤ min 65535 (seat.turn + 1)) }
  else seat

/-- The records whose reserved views a second event changes: the redirects that expire, the booths whose requests lapse. -/
def secondRecords (s : State) : List RecordName :=
  (List.range' 1 24).filterMap (fun x =>
      match (s.channel x).state with
      | .redirect _ hold => if hold ≤ 1 then some (.channel x) else none
      | _ => none) ++
    (List.range' 1 16).filterMap (fun x =>
      match (s.booth x).handover with
      | some r => if r.window ≤ 1 then some (.booth x) else none
      | none => none)

/-- The notices of a second event: the expiries of the channels, then the lapses of the booths. -/
def secondNotices (s : State) : List Notice :=
  (List.range' 1 24).flatMap (fun x =>
      match (s.channel x).state with
      | .redirect target hold =>
        if hold ≤ 1 then
          [.channelChanged x { s.channel x with state := .free }, .redirectEnded x target .expired]
        else []
      | _ => []) ++
    (List.range' 1 16).flatMap (fun x =>
      match (s.booth x).handover with
      | some r => if r.window ≤ 1 then [.handoverLapsed x r.requester (s.booth x).onAirSeat] else []
      | none => [])

/-- The notices of a minute tick: TURN_OVERDUE of each seat that becomes overdue, by booth and seat. -/
def minuteNotices (s : State) : List Notice :=
  (List.range' 1 16).flatMap fun b => [1, 2, 3].flatMap fun n =>
    if (minuteSeat (s.booth b) n).overdue = true ∧ ((s.booth b).seat n).overdue = false then
      [.turnOverdue b n (minuteSeat (s.booth b) n).turn]
    else []

/-- SECOND_EVENT (R18, R56, R198): every REDIRECT channel and every REQUESTED booth takes it by its own rule, and the
second count increases; the one that brings it to 60 sets it to 0, the hall minute increases, saturating, and the LIVE
channels and the on-air seats count their minute as well (R199, R23, R42, R43). No rule orders the notices of different
records within one second event: channels ascending, then booths, then the minute tick is the model's choice (log entry
13). -/
def Obligations.SecondEventCounts : Prop :=
  (∀ (s : State),
    s.run = .hall → s.second < 59 →
    ∃ t, exec .secondEvent s = .next t ∧
      t.second = s.second + 1 ∧
      (∀ x, t.channel x = if 1 ≤ x ∧ x ≤ 24 then secondChannel s x else s.channel x) ∧
      (∀ x, t.booth x = if 1 ≤ x ∧ x ≤ 16 then secondBooth s x else s.booth x) ∧
      Told s t (secondRecords s) (toOps (secondNotices s)) ∧
      t = { s with
        second := t.second, channels := t.channels, booths := t.booths, opsPort := t.opsPort,
        deskAPort := t.deskAPort, deskBPort := t.deskBPort, feed := t.feed }) ∧
  (∀ (s : State),
    s.run = .hall → 59 ≤ s.second →
    ∃ t, exec .secondEvent s = .next t ∧ t.second = 0 ∧ t.minute = min 16777215 (s.minute + 1) ∧
      (∀ x, t.channel x =
        if 1 ≤ x ∧ x ≤ 24 then
          if (s.channel x).state.code = 2 then
            { s.channel x with liveMinutes := min 4294967295 ((s.channel x).liveMinutes + 1) }
          else secondChannel s x
        else s.channel x) ∧
      (∀ b, t.booth b =
        { (if 1 ≤ b ∧ b ≤ 16 then secondBooth s b else s.booth b) with seats := (t.booth b).seats }) ∧
      (∀ b n, (t.booth b).seat n =
        if 1 ≤ b ∧ b ≤ 16 ∧ 1 ≤ n ∧ n ≤ 3 then minuteSeat (s.booth b) n else (s.booth b).seat n) ∧
      Told s t (secondRecords s) (toOps (secondNotices s ++ minuteNotices s)) ∧
      t = { s with
        second := t.second, minute := t.minute, channels := t.channels, booths := t.booths, opsPort := t.opsPort,
        deskAPort := t.deskAPort, deskBPort := t.deskBPort, feed := t.feed })

/-- MINUTE_TICK (R199, R23, R42, R43): the second count is 0 and the hall minute advances, saturating; every LIVE channel
counts a live-minute; every on-air seat counts its minute, with TURN_OVERDUE once when it becomes overdue. R199 makes the
tick at the 60th second event: that the row MINUTE_TICK makes it by itself, whatever the second count stands at, and the
order of its notices by booth and seat, are the model's choices (log entry 13). -/
def Obligations.MinuteTickCounts : Prop :=
  ∀ (s : State),
    s.run = .hall →
    ∃ t, exec .minuteTick s = .next t ∧
      t.second = 0 ∧ t.minute = min 16777215 (s.minute + 1) ∧
      (∀ x, t.channel x =
        if 1 ≤ x ∧ x ≤ 24 ∧ (s.channel x).state.code = 2 then
          { s.channel x with liveMinutes := min 4294967295 ((s.channel x).liveMinutes + 1) }
        else s.channel x) ∧
      (∀ b n, (t.booth b).seat n =
        if 1 ≤ b ∧ b ≤ 16 ∧ 1 ≤ n ∧ n ≤ 3 then minuteSeat (s.booth b) n else (s.booth b).seat n) ∧
      (∀ b, t.booth b = { s.booth b with seats := (t.booth b).seats }) ∧
      Told s t [] (toOps (minuteNotices s)) ∧
      t = { s with
        second := t.second, minute := t.minute, channels := t.channels, booths := t.booths, opsPort := t.opsPort,
        deskAPort := t.deskAPort, deskBPort := t.deskBPort, feed := t.feed }

/-- STATUS (R182): the reply carries the state of the part and of the port as they stand, and the port's frame-error flag
is then clear; nothing of another port changes. In INSTALL the operations port is answered, with the run state INSTALL, the
start kind that a hall start would take and the clock-suspect flag set (R204). -/
def Obligations.StatusReports : Prop :=
  (∀ (s : State) (p : Port) (tag : Byte),
    s.Takes p →
    ∃ t, exec (.status p tag []) s = .next t ∧
      t.port p =
        { s.port p with frameError := false }.hand tag 0x01
          ⟨.ok,
            [0x00, if s.startKind = StartKind.warm then 0x01 else 0x00,
              BitVec.ofNat 8
                ((if s.clamped then 1 else 0) + (if s.suspect then 2 else 0) +
                  (if (s.port p).frameError then 4 else 0) + (if (s.port p).overflow then 8 else 0) +
                  (match p with
                   | .ops => 0
                   | .deskA => 16 + (if s.bufferA.isSome then 32 else 0)
                   | .deskB => (if 2 ≤ s.profile.racks then 16 else 0) + (if s.bufferB.isSome then 32 else 0))),
              BitVec.ofNat 8 (s.port p).notices.length] ++ reservationBytes (s.port p).reservation⟩ ∧
      (∀ x, x ≠ p → t.port x = s.port x) ∧
      t = { s with
        opsPort := t.opsPort, deskAPort := t.deskAPort, deskBPort := t.deskBPort, feed := t.feed }) ∧
  (∀ (s : State) (tag : Byte),
    s.run = .install → (s.port .ops).inHand = none →
    ∃ t, exec (.status .ops tag []) s = .next t ∧
      t.port .ops =
        { s.port .ops with frameError := false }.hand tag 0x01
          ⟨.ok,
            [0x01, if s.marker then 0x01 else 0x00,
              BitVec.ofNat 8
                ((if s.clamped then 1 else 0) + 2 + (if (s.port .ops).frameError then 4 else 0) +
                  (if (s.port .ops).overflow then 8 else 0)),
              BitVec.ofNat 8 (s.port .ops).notices.length] ++ reservationBytes (s.port .ops).reservation⟩ ∧
      t = { s with opsPort := t.opsPort })

/-- The selector of a READ is out of range, or the kind is not one of READ's (R181, R209): a byte that the kind does not use
must be 00H, but for CLOCK and for SETTLEMENT from a desk port, which ignore the selector. -/
def badSelector (p : Port) (kind x y z : Byte) : Bool :=
  match kind.toNat with
  | 0 => x ≠ 0x00 ∨ y ≠ 0x00 ∨ 31 < z.toNat
  | 1 => x ≠ 0x00 ∨ y ≠ 0x00 ∨ z = 0x00 ∨ 24 < z.toNat
  | 2 => x ≠ 0x00 ∨ y ≠ 0x00 ∨ z = 0x00 ∨ 16 < z.toNat
  | 3 => x ≠ 0x00 ∨ 4095 < y.toNat * 256 + z.toNat
  | 4 => (x = 0x00 ∧ y = 0x00 ∧ z = 0x00) ∨ (x = 0xFF ∧ y = 0xFF ∧ z = 0xFF)
  | 5 => 1023 < x.toNat * 256 + y.toNat
  | 6 | 7 => x ≠ 0x00 ∨ y ≠ 0x00 ∨ 7 < z.toNat
  | 8 => 1 < x.toNat ∨ 31 < y.toNat ∨ z ≠ 0x00
  | 9 => 2 < x.toNat ∨ y ≠ 0x00 ∨ z ≠ 0x00
  | 10 => p = .ops ∧ (1 < x.toNat ∨ y ≠ 0x00 ∨ z ≠ 0x00)
  | 11 => false
  | _ => true

/-- READ (R181, R100, R101, R141, R164): on every port a record of each kind is answered as it stands, and no record is
changed; a read of a booth alone touches the port, whose latches of that booth take the values of the moment. A reference
held by a settlement buffer is answered with the settlement and the state SETTLED, one that names an OPEN account with the
account, any other with NO_RECORD. A kind that READ has not, and an index out of its range, are answered BAD_ARG. That a
settled reference is answered OK is the model's choice (log entry 26), and so are the order of a booth's accepted set and
the bytes of absent fields of a booth or a slot (log entry 25). -/
def Obligations.ReadAnswers : Prop :=
  (∀ (s : State) (p : Port) (tag kind x y z : Byte),
    s.Takes p →
    RefusedBy (.read p tag [kind, x, y, z]) s p tag 0x02 [(badSelector p kind x y z = true, .badArg)]) ∧
  (∀ (s : State) (p : Port) (tag : Byte),
    s.Takes p →
    let answers (payload : List Byte) (r : Reply) : Prop :=
      ∃ t, exec (.read p tag payload) s = .next t ∧ Answered s t p tag 0x02 r [] toNone ∧
        t = { s with
          opsPort := t.opsPort, deskAPort := t.deskAPort, deskBPort := t.deskBPort, feed := t.feed }
    (∀ i : Byte, i.toNat ≤ 31 → answers [0x00, 0, 0, i] ⟨.ok, (s.language i.toNat).bytes i.toNat⟩) ∧
    (∀ c : Byte, 1 ≤ c.toNat → c.toNat ≤ 24 → answers [0x01, 0, 0, c] ⟨.ok, (s.channel c.toNat).bytes c.toNat⟩) ∧
    (∀ (hi lo : Byte), hi.toNat * 256 + lo.toNat ≤ 4095 →
      answers [0x03, 0, hi, lo]
        (match s.receiver (hi.toNat * 256 + lo.toNat) with
         | some v => ⟨.ok, v.bytes (hi.toNat * 256 + lo.toNat)⟩
         | none => ⟨.noRecord, []⟩)) ∧
    (∀ k : Byte, k.toNat ≤ 7 → answers [0x06, 0, 0, k] ⟨.ok, byte1 k.toNat ++ (s.tariff k.toNat).bytes⟩) ∧
    (∀ k : Byte, k.toNat ≤ 7 → answers [0x07, 0, 0, k] ⟨.ok, (s.filter k.toNat).bytes k.toNat⟩) ∧
    (∀ n : Byte, n.toNat ≤ 31 → answers [0x08, 0, n, 0] ⟨.ok, (s.slot .a n.toNat).bytes .a n.toNat⟩ ∧
      answers [0x08, 1, n, 0] ⟨.ok, (s.slot .b n.toNat).bytes .b n.toNat⟩) ∧
    (∀ x y z : Byte, 1 ≤ x.toNat * 65536 + y.toNat * 256 + z.toNat → x.toNat * 65536 + y.toNat * 256 + z.toNat ≤ 16777214 →
      answers [0x04, x, y, z]
        (match s.bySerial (x.toNat * 65536 + y.toNat * 256 + z.toNat) with
         | some (i, v) => ⟨.ok, v.bytes i⟩
         | none => ⟨.noRecord, []⟩)) ∧
    answers [0x09, 0x00, 0, 0]
      ⟨.ok, (List.range' 1 24).flatMap fun c => byte4 (s.channel c).liveMinutes⟩ ∧
    answers [0x09, 0x01, 0, 0]
      ⟨.ok, (List.range' 1 16).flatMap fun b => [1, 2, 3].flatMap fun n => byte4 ((s.booth b).seat n).liveMinutes⟩ ∧
    answers [0x09, 0x02, 0, 0]
      ⟨.ok, (List.range 8).flatMap fun k =>
        byte4 (s.report k).settled ++ byte4 (s.report k).charged ++ byte4 (s.report k).due ++ byte4 (s.report k).refunded⟩ ∧
    (∀ r, p = deskOf r → ∀ x y z : Byte, answers [0x0A, x, y, z]
      (match s.buffer r with
       | some v => ⟨.ok, v.bytes⟩
       | none => if s.rackFitted r then ⟨.noRecord, []⟩ else ⟨.wrongState, []⟩)) ∧
    (p = .ops → ∀ r, answers [0x0A, match r with | .a => 0x00 | .b => 0x01, 0, 0]
      (match s.buffer r with
       | some v => ⟨.ok, v.bytes⟩
       | none => ⟨.noRecord, []⟩)) ∧
    (∀ x y z : Byte, answers [0x0B, x, y, z]
      ⟨.ok, byte3 s.minute ++ byte2 s.day ++ [if s.suspect then 0x01 else 0x00]⟩) ∧
    (∀ b : Byte, 1 ≤ b.toNat → b.toNat ≤ 16 →
      ∃ t, exec (.read p tag [0x02, 0, 0, b]) s = .next t ∧
        (∃ q : PortState, t.port p = q.hand tag 0x02
            ⟨.ok, (s.booth b.toNat).bytes b.toNat ((s.port p).presenceOf b.toNat) ((s.port p).faultOf b.toNat)⟩ ∧
          q = { s.port p with presence := q.presence, faults := q.faults }) ∧
        (t.port p).presenceOf b.toNat = decide ((s.booth b.toNat).link.state = .present) ∧
        (t.port p).faultOf b.toNat = decide ((s.booth b.toNat).link.state = .faultWait) ∧
        (∀ y, y ≠ b.toNat → (t.port p).presenceOf y = (s.port p).presenceOf y ∧
          (t.port p).faultOf y = (s.port p).faultOf y) ∧
        (∀ x, x ≠ p → t.port x = s.port x) ∧
        t = { s with
          opsPort := t.opsPort, deskAPort := t.deskAPort, deskBPort := t.deskBPort, feed := t.feed })) ∧
  (∀ (s : State) (p : Port) (tag hi lo g : Byte),
    s.Takes p → hi.toNat * 256 + lo.toNat ≤ 1023 →
    let ref : AccountRef := ⟨hi.toNat * 256 + lo.toNat, g.toNat⟩
    ∃ t r, exec (.read p tag [0x05, hi, lo, g]) s = .next t ∧ Answered s t p tag 0x02 r [] toNone ∧
      (∀ v, s.bufferA = some v → v.account = ref → r = ⟨.ok, 0x02 :: v.bytes⟩) ∧
      (∀ v, s.bufferB = some v → v.account = ref → (∀ w, s.bufferA = some w → w.account ≠ ref) →
        r = ⟨.ok, 0x02 :: v.bytes⟩) ∧
      ((∀ v, s.bufferA = some v ∨ s.bufferB = some v → v.account ≠ ref) →
        r = (match (s.account ref.index).account with
             | some o => if (s.account ref.index).generation = ref.generation then ⟨.ok, o.bytes ref⟩ else ⟨.noRecord, []⟩
             | none => ⟨.noRecord, []⟩)) ∧
      t = { s with
        opsPort := t.opsPort, deskAPort := t.deskAPort, deskBPort := t.deskBPort, feed := t.feed })

/-- READ_RESERVE (R188): a language, channel, booth, tariff class or OPEN account is answered as READ answers it, and the
port's reservation is set on it, a booth's latches at the port taking the values of the moment (R100, R101). A kind that
cannot be reserved and an index out of range are answered BAD_ARG, a reference that names nothing NO_RECORD, one held by a
settlement buffer with the settlement (answered OK as by READ, log entry 26); each leaves the reservation as it was. -/
def Obligations.ReadReserveReserves : Prop :=
  (∀ (s : State) (p : Port) (tag kind x y z : Byte),
    s.Takes p →
    RefusedBy (.readReserve p tag [kind, x, y, z]) s p tag 0x03
      [(kind.toNat ∉ [0, 1, 2, 5, 6] ∨ badSelector p kind x y z = true, .badArg)]) ∧
  (∀ (s : State) (p : Port) (tag hi lo g : Byte),
    s.Takes p → hi.toNat * 256 + lo.toNat ≤ 1023 →
    let ref : AccountRef := ⟨hi.toNat * 256 + lo.toNat, g.toNat⟩
    let answers := Answers (.readReserve p tag [0x05, hi, lo, g]) s p tag 0x03
    (∀ v, s.bufferA = some v → v.account = ref → answers ⟨.ok, 0x02 :: v.bytes⟩) ∧
    (∀ v, s.bufferB = some v → v.account = ref → (∀ w, s.bufferA = some w → w.account ≠ ref) →
      answers ⟨.ok, 0x02 :: v.bytes⟩) ∧
    ((∀ v, s.bufferA = some v ∨ s.bufferB = some v → v.account ≠ ref) →
      (s.account ref.index).account = none ∨ (s.account ref.index).generation ≠ ref.generation →
      answers ⟨.noRecord, []⟩)) ∧
  ∀ (s : State) (p : Port) (tag : Byte),
    s.Takes p →
    let reserves (payload : List Byte) (fields : List Byte) (v : Reservation) : Prop :=
      ∃ t, exec (.readReserve p tag payload) s = .next t ∧
        t.port p = { s.port p with reservation := some v }.hand tag 0x03 ⟨.ok, fields⟩ ∧
        (∀ x, x ≠ p → t.port x = s.port x) ∧
        t = { s with
          opsPort := t.opsPort, deskAPort := t.deskAPort, deskBPort := t.deskBPort, feed := t.feed }
    (∀ i : Byte, i.toNat ≤ 31 →
      reserves [0x00, 0, 0, i] ((s.language i.toNat).bytes i.toNat) ⟨.language i.toNat, 0⟩) ∧
    (∀ c : Byte, 1 ≤ c.toNat → c.toNat ≤ 24 →
      reserves [0x01, 0, 0, c] ((s.channel c.toNat).bytes c.toNat) ⟨.channel c.toNat, 0⟩) ∧
    (∀ k : Byte, k.toNat ≤ 7 →
      reserves [0x06, 0, 0, k] (byte1 k.toNat ++ (s.tariff k.toNat).bytes) ⟨.tariff k.toNat, 0⟩) ∧
    (∀ (hi lo g : Byte) (o : OpenAccount), hi.toNat * 256 + lo.toNat ≤ 1023 →
      s.account (hi.toNat * 256 + lo.toNat) = ⟨g.toNat, some o⟩ →
      (∀ v, s.bufferA = some v ∨ s.bufferB = some v → v.account ≠ ⟨hi.toNat * 256 + lo.toNat, g.toNat⟩) →
      reserves [0x05, hi, lo, g] (o.bytes ⟨hi.toNat * 256 + lo.toNat, g.toNat⟩)
        ⟨.account (hi.toNat * 256 + lo.toNat), g.toNat⟩) ∧
    (∀ b : Byte, 1 ≤ b.toNat → b.toNat ≤ 16 →
      ∃ t, exec (.readReserve p tag [0x02, 0, 0, b]) s = .next t ∧
        (∃ q : PortState, t.port p = q.hand tag 0x03
            ⟨.ok, (s.booth b.toNat).bytes b.toNat ((s.port p).presenceOf b.toNat) ((s.port p).faultOf b.toNat)⟩ ∧
          q = { s.port p with
            reservation := some ⟨.booth b.toNat, 0⟩, presence := q.presence, faults := q.faults }) ∧
        (t.port p).presenceOf b.toNat = decide ((s.booth b.toNat).link.state = .present) ∧
        (t.port p).faultOf b.toNat = decide ((s.booth b.toNat).link.state = .faultWait) ∧
        (∀ y, y ≠ b.toNat → (t.port p).presenceOf y = (s.port p).presenceOf y ∧
          (t.port p).faultOf y = (s.port p).faultOf y) ∧
        (∀ x, x ≠ p → t.port x = s.port x) ∧
        t = { s with
          opsPort := t.opsPort, deskAPort := t.deskAPort, deskBPort := t.deskBPort, feed := t.feed })

/-- From `s` to `t` the reserved view of a record stayed as it was: every field of a language (R191); of a channel its state
with its language and target, and its floor-fill flag (R191); of a booth its configuration, seat states, selected output,
handover state with requester, input, taker set and link state (R192); of an account its state with its generation, its entry
list, running charge, served and loss counts and saturated flag (R193); of a tariff class all of it (R194). -/
def ViewKept (s t : State) : RecordName → Prop
  | .language i => t.language i = s.language i
  | .channel c =>
    (t.channel c).state.code = (s.channel c).state.code ∧ (t.channel c).state.language = (s.channel c).state.language ∧
      (t.channel c).state.target = (s.channel c).state.target ∧ (t.channel c).floorFill = (s.channel c).floorFill
  | .booth b =>
    (t.booth b).config = (s.booth b).config ∧
      (∀ n, 1 ≤ n → n ≤ 3 → ((t.booth b).seat n).state = ((s.booth b).seat n).state) ∧
      (t.booth b).selected = (s.booth b).selected ∧
      (t.booth b).handover.map (·.requester) = (s.booth b).handover.map (·.requester) ∧
      (t.booth b).input = (s.booth b).input ∧ (t.booth b).takers = (s.booth b).takers ∧
      (t.booth b).link.state = (s.booth b).link.state
  | .account i =>
    (t.account i).generation = (s.account i).generation ∧
      (t.account i).account.map (fun o => (o.entries, o.running, o.served, o.losses, o.saturated)) =
        (s.account i).account.map fun o => (o.entries, o.running, o.served, o.losses, o.saturated)
  | .tariff k => t.tariff k = s.tariff k

/-- RESERVE_DROP clears the port's reservation and answers OK, whether or not the reservation was valid; it changes no
record, and the other ports' reservations stand (R189). The law of the reservations (R190): whatever is commanded, a
reservation that a port holds after a step is on a record whose reserved view the step left as it was, so that a change of
the view clears every port's reservation on it. The loss of the retained memory is left out, which the manual gives no
reservation's fate (log entry 4). -/
def Obligations.ReserveDropDrops : Prop :=
  (∀ (s : State) (p : Port) (tag : Byte),
    s.Takes p →
    ∃ t, exec (.reserveDrop p tag []) s = .next t ∧
      t.port p = { s.port p with reservation := none }.hand tag 0x04 ⟨.ok, []⟩ ∧
      (∀ x, x ≠ p → t.port x = s.port x) ∧
      t = { s with
        opsPort := t.opsPort, deskAPort := t.deskAPort, deskBPort := t.deskBPort, feed := t.feed }) ∧
  (∀ (c : Instr) (s t : State) (p : Port) (v : Reservation),
    c ≠ .retainedMemoryLoss → exec c s = .next t → (t.port p).reservation = some v → ViewKept s t v.record) ∧
  (∀ (q : PortState) (records : List RecordName),
    q.clearAll records =
      { q with reservation := q.reservation.filter fun v => v.record ∉ records })

/-- REPORT_CLEAR (R23, R44, R168): the counters of the group named are 0, and no other counter is touched; a group that is
none of the three is answered BAD_ARG and changes nothing (R207). -/
def Obligations.ReportClearClears : Prop :=
  (∀ (s : State) (tag group : Byte),
    s.Takes .ops → RefusedBy (.reportClear .ops tag [group]) s .ops tag 0x21 [(2 < group.toNat, .badArg)]) ∧
  ∀ (s : State) (tag : Byte),
    s.Takes .ops →
    (∃ t, exec (.reportClear .ops tag [0x00]) s = .next t ∧
      (∀ x, t.channel x =
        if 1 ≤ x ∧ x ≤ 24 then { s.channel x with liveMinutes := 0 } else s.channel x) ∧
      Answered s t .ops tag 0x21 ⟨.ok, []⟩ [] toNone ∧
      t = { s with
        channels := t.channels, opsPort := t.opsPort, deskAPort := t.deskAPort, deskBPort := t.deskBPort,
        feed := t.feed }) ∧
    (∃ t, exec (.reportClear .ops tag [0x01]) s = .next t ∧
      (∀ b n, (t.booth b).seat n =
        if 1 ≤ b ∧ b ≤ 16 ∧ 1 ≤ n ∧ n ≤ 3 then { (s.booth b).seat n with liveMinutes := 0 }
        else (s.booth b).seat n) ∧
      (∀ b, t.booth b = { s.booth b with seats := (t.booth b).seats }) ∧
      Answered s t .ops tag 0x21 ⟨.ok, []⟩ [] toNone ∧
      t = { s with
        booths := t.booths, opsPort := t.opsPort, deskAPort := t.deskAPort, deskBPort := t.deskBPort,
        feed := t.feed }) ∧
    (∃ t, exec (.reportClear .ops tag [0x02]) s = .next t ∧
      (∀ k, t.report k = if k ≤ 7 then ⟨0, 0, 0, 0⟩ else s.report k) ∧
      Answered s t .ops tag 0x21 ⟨.ok, []⟩ [] toNone ∧
      t = { s with
        reports := t.reports, opsPort := t.opsPort, deskAPort := t.deskAPort, deskBPort := t.deskBPort,
        feed := t.feed })

/-- The row of the table for a command by its name; `failure` is the operand of PROFILE_WRITE alone. -/
def commandRow (failure : Option StoreImage) (name : CommandName) (p : Port) (tag : Byte) (payload : List Byte) : Instr :=
  match name with
  | .status => .status p tag payload
  | .read => .read p tag payload
  | .readReserve => .readReserve p tag payload
  | .reserveDrop => .reserveDrop p tag payload
  | .langDefine => .langDefine p tag payload
  | .langRemove => .langRemove p tag payload
  | .chanMap => .chanMap p tag payload
  | .chanUnmap => .chanUnmap p tag payload
  | .chanMove => .chanMove p tag payload
  | .chanFloorfill => .chanFloorfill p tag payload
  | .boothConfig => .boothConfig p tag payload
  | .boothInput => .boothInput p tag payload
  | .seatForceTake => .seatForceTake p tag payload
  | .seatForceOff => .seatForceOff p tag payload
  | .tariffWrite => .tariffWrite p tag payload
  | .filterWrite => .filterWrite p tag payload
  | .clockSet => .clockSet p tag payload
  | .dayClose => .dayClose p tag payload
  | .receiverEnroll => .receiverEnroll p tag payload
  | .receiverRetire => .receiverRetire p tag payload
  | .receiverService => .receiverService p tag payload
  | .reportClear => .reportClear p tag payload
  | .profileRead => .profileRead p tag payload
  | .profileWrite => .profileWrite p tag payload failure
  | .accountOpen => .accountOpen p tag payload
  | .accountFind => .accountFind p tag payload
  | .accountClose => .accountClose p tag payload
  | .issue => .issue p tag payload
  | .settlementTake => .settlementTake p tag payload
  | .slotClear => .slotClear p tag payload
  | .rackReset => .rackReset p tag payload
  | .enrollSlot => .enrollSlot p tag payload
  | .accountAdjust => .accountAdjust p tag payload
  | .lossDeclare => .lossDeclare p tag payload

/-- A command that is not for the port, that is unknown, or whose payload has not its length is answered DENIED or BAD_ARG
in the order of R177, and in INSTALL every command but PROFILE_READ, PROFILE_WRITE and STATUS from the operations port is
answered DENIED (R204); nothing changes but the port's reply. It holds of every command's own row, and of the row
UNKNOWN_COMMAND, whose effect for a CODE that does name a command is the model's choice (log entry 6). -/
def Obligations.RefusedCommandsChangeNothing : Prop :=
  (∀ (s : State) (p : Port) (tag code : Byte) (payload : List Byte),
    s.Takes p →
    let refused (r : Result) : Prop :=
      ∃ t, exec (.unknownCommand p tag code payload) s = .next t ∧
        Answered s t p tag code ⟨r, []⟩ [] toNone ∧
        t = { s with
          opsPort := t.opsPort, deskAPort := t.deskAPort, deskBPort := t.deskBPort, feed := t.feed }
    (commandOf code = none → refused .badArg) ∧
    (∀ name, commandOf code = some name → name.permitted p = false → refused .denied) ∧
    (∀ name, commandOf code = some name → name.permitted p = true → name.lengthOk payload.length = false →
      refused .badArg)) ∧
  (∀ (s : State) (p : Port) (tag code : Byte) (payload : List Byte),
    s.run = .install → (s.port p).inHand = none →
    (p = .ops → code.toNat ∉ [0x01, 0x22, 0x23]) →
    ∃ t, exec (.unknownCommand p tag code payload) s = .next t ∧
      Answered s t p tag code ⟨.denied, []⟩ [] toNone ∧
      t = { s with opsPort := t.opsPort, deskAPort := t.deskAPort, deskBPort := t.deskBPort }) ∧
  (∀ (s : State) (p : Port) (tag : Byte) (payload : List Byte) (name : CommandName),
    s.Takes p →
    let refused (r : Result) : Prop :=
      ∃ t, exec (commandRow s.storeFailure name p tag payload) s = .next t ∧
        Answered s t p tag name.code ⟨r, []⟩ [] toNone ∧
        t = { s with
          opsPort := t.opsPort, deskAPort := t.deskAPort, deskBPort := t.deskBPort, feed := t.feed }
    (name.permitted p = false → refused .denied) ∧
    (name.permitted p = true → name.lengthOk payload.length = false → refused .badArg)) ∧
  (∀ (s : State) (p : Port) (tag : Byte) (payload : List Byte) (name : CommandName),
    s.run = .install → (s.port p).inHand = none →
    (p = .ops → name ∉ [.status, .profileRead, .profileWrite]) →
    ∃ t, exec (commandRow s.storeFailure name p tag payload) s = .next t ∧
      Answered s t p tag name.code ⟨.denied, []⟩ [] toNone ∧
      t = { s with opsPort := t.opsPort, deskAPort := t.deskAPort, deskBPort := t.deskBPort })

/-- Bytes on a receive line, each with its stop bit (R171). -/
def onLine (bytes : List Byte) : List LineByte := bytes.map fun b => ⟨b, true⟩

/-- The rows that stand for a received command with a CODE: the command's own row, and UNKNOWN_COMMAND, which for a CODE that
names a command is the model's choice (log entry 6). -/
def StandsFor (s : State) (p : Port) (tag code : Byte) (payload : List Byte) (i : Instr) : Prop :=
  i = .unknownCommand p tag code payload ∨
    ∃ name, commandOf code = some name ∧ i = commandRow s.storeFailure name p tag payload

/-- A frame on the receive line is its command (R172 to R176): the bytes of a COMMAND frame, received by a HUNTING framer
with an empty receive buffer and no command in hand, have the effect of the command they carry. With a command in hand the
frame, and the row of its command, wait in the receive buffer if it has room and are discarded with the frame-error flag if
not; at the end of the reply the oldest received command is not; at the end of the reply the oldest received command is
taken, with the effect of its row. The model's choices are that the row of a command waits or is discarded as its frame is
(log entry 5), that the row UNKNOWN_COMMAND may carry a CODE that names a command (log entry 6), that FRAME_RECEIVED carries
the level of the hold input (log entry 7), and that at the end of a reply the next command is taken before the next frame is
chosen (log entry 9). -/
def Obligations.FrameReceivedIsCommand : Prop :=
  (∀ (s : State) (p : Port) (hold : Bool) (tag code : Byte) (payload : List Byte),
    s.run ≠ .off → (s.port p).framer = .hunting → (s.port p).received = [] → (s.port p).inHand = none →
    (s.port p).notices = [] → payload.length ≤ 250 →
    ∃ t, exec (.frameReceived p hold (onLine (frameBytes 0x01 tag code payload))) s = .next t ∧
      ∀ i, StandsFor s p tag code payload i → exec i (s.setPort p { s.port p with hold := hold }) = .next t) ∧
  (∀ (s : State) (p : Port) (tag code : Byte) (payload : List Byte) (i : Instr) (h : InHand),
    let q := s.port p
    let frame := frameBytes 0x01 tag code payload
    let fits := (q.received.map List.length).sum + payload.length + 6 ≤ 256
    let kept : State :=
      s.setPort p
        (if fits then { q with received := q.received ++ [frame.tail] } else { q with frameError := true })
    s.run ≠ .off → q.framer = .hunting → q.inHand = some h → q.chooseFrame = q → payload.length ≤ 250 →
    StandsFor s p tag code payload i →
    exec (.frameReceived p q.hold (onLine frame)) s = .next kept ∧ exec i s = .next kept) ∧
  (∀ (s : State) (p : Port) (hold : Bool) (tag code t c : Byte) (payload : List Byte) (r : Reply) (rest : List (List Byte))
      (i : Instr),
    let q := s.port p
    s.run ≠ .off → q.sending = some (.reply t c r) → q.received = (frameBytes 0x01 tag code payload).tail :: rest →
    StandsFor s p tag code payload i →
    exec (.frameSent p hold) s =
      exec i (s.setPort p { q with hold := hold, sending := none, inHand := none, received := rest }))

/-- A frame that fails its check, or is timed out, is discarded with the frame-error flag set (R171, R173, R174): a frame
whose TYPE is not COMMAND, whose CRC differs, or of which a byte came with a missing stop bit; a LEN byte out of range ends
the frame at once. The framer hunts, no command is taken, nothing else changes. -/
def Obligations.BadFramesAreDiscarded : Prop :=
  (∀ (s : State) (p : Port),
    s.run ≠ .off → (s.port p).framer = .hunting → (s.port p).received = [] → (s.port p).chooseFrame = s.port p →
    let discarded (bytes : List LineByte) : Prop :=
      exec (.frameReceived p (s.port p).hold bytes) s = .next (s.setPort p { s.port p with frameError := true })
    (∀ (kind tag code : Byte) (payload : List Byte), payload.length ≤ 250 → kind ≠ 0x01 →
      discarded (onLine (frameBytes kind tag code payload))) ∧
    (∀ (kind tag code hi lo : Byte) (payload : List Byte), payload.length ≤ 250 →
      let body := BitVec.ofNat 8 (payload.length + 3) :: kind :: tag :: code :: payload
      hi ++ lo ≠ crc16 body → discarded (onLine (0xA5 :: (body ++ [hi, lo])))) ∧
    (∀ (kind tag code : Byte) (payload : List Byte) (bytes : List LineByte), payload.length ≤ 250 →
      bytes.map (·.value) = frameBytes kind tag code payload → (∃ b ∈ bytes, b.stop = false) → discarded bytes) ∧
    (∀ len : Byte, len.toNat < 3 ∨ 253 < len.toNat → discarded (onLine [0xA5, len]))) ∧
  (∀ (s : State) (p : Port),
    s.run ≠ .off → (s.port p).framer ≠ .hunting →
    exec (.frameTimeout p) s = .next (s.setPort p { s.port p with framer := .hunting, frameError := true })) ∧
  (∀ (s : State) (p : Port), (s.port p).framer = .hunting → exec (.frameTimeout p) s = .next s)

/-- The choice of the next frame when the hold input is released and at the end of a notice or a reply (R176, R184, R185): a
reply that no earlier notice precedes is sent, or any waiting reply while the hold input is asserted; otherwise the oldest
notice while it is released, carrying and clearing the overflow latch; otherwise the transmitter is idle. After a reply the
command is no longer in hand. How notices and replies reach a port, of which the other statements speak as `Told` and
`Answered`: while a frame is being sent, notices join the queue at the tail, each one beyond 16 discards the oldest and sets
the overflow latch (R183, R184), and a reply waits behind the notices queued before it; an idle transmitter whose hold input
is released sends the first notice at once, and one with no notice queued sends a reply at once (R185). That FRAME_SENT
carries the level of the hold input is the model's choice (log entry 7). -/
def Obligations.NextFrameIsChosen : Prop :=
  (∀ (q : PortState) (notices : List Notice),
    q.sending ≠ none → q.notices.length ≤ 16 →
    let all := q.notices ++ notices
    q.told notices =
      { q with
        notices := all.drop (all.length - 16)
        overflow := q.overflow || decide (16 < all.length)
        inHand := q.inHand.map fun h => { h with ahead := h.ahead - (all.length - 16) } }) ∧
  (∀ (q : PortState) (n : Notice) (notices : List Notice),
    q.sending = none → q.inHand = none → q.notices = [] → q.hold = false →
    q.told (n :: notices) = { q with sending := some (.notice n q.overflow), overflow := false }.told notices) ∧
  (∀ (q : PortState) (tag code : Byte) (r : Reply),
    (q.sending ≠ none →
      q.hand tag code r = { q with inHand := some ⟨tag, code, r, q.notices.length, false⟩ }) ∧
    (q.sending = none → q.notices = [] ∨ q.hold = true →
      q.hand tag code r =
        { q with
          sending := some (.reply tag code r)
          inHand := some ⟨tag, code, r, q.notices.length, true⟩ })) ∧
  (∀ (s : State) (p : Port) (hold : Bool) (n : Notice) (overflow : Bool),
    s.run ≠ .off →
    let q := s.port p
    let reply : Option InHand := q.inHand.filter fun h => !h.begun
    let chosen (w : PortState) : Prop :=
      (∀ h, reply = some h → h.ahead = 0 ∨ hold = true →
        w = { q with hold := hold, sending := some (.reply h.tag h.code h.reply), inHand := some { h with begun := true } }) ∧
      (∀ first rest, q.notices = first :: rest → hold = false → (∀ h, reply = some h → h.ahead ≠ 0) →
        w = { q with
              hold := false, notices := rest, overflow := false, sending := some (.notice first q.overflow)
              inHand := q.inHand.map fun h => { h with ahead := h.ahead - 1 } }) ∧
      ((∀ h, reply ≠ some h) → q.notices = [] ∨ hold = true → w = { q with hold := hold, sending := none })
    (q.sending = some (.notice n overflow) →
      ∃ t, exec (.frameSent p hold) s = .next t ∧ chosen (t.port p) ∧ t = s.setPort p (t.port p)) ∧
    (q.sending = none → hold = false →
      ∃ t, exec (.holdReleased p) s = .next t ∧ chosen (t.port p) ∧ t = s.setPort p (t.port p))) ∧
  (∀ (s : State) (p : Port) (hold : Bool) (tag code : Byte) (r : Reply),
    s.run ≠ .off → (s.port p).sending = some (.reply tag code r) → (s.port p).received = [] →
    exec (.frameSent p hold) s =
      .next (s.setPort p
        (match (s.port p).notices with
         | first :: rest =>
           if hold then { s.port p with hold := hold, sending := none, inHand := none }
           else { s.port p with
                  hold := hold, notices := rest, overflow := false, inHand := none
                  sending := some (.notice first (s.port p).overflow) }
         | [] => { s.port p with hold := hold, sending := none, inHand := none })))


-- Chapters 6 to 8: receivers, accounts and settlements

/-- The checks of TARIFF_WRITE (R133). -/
def tariffWriteChecks (s : State) (flags cls unit limit : Byte) : List (Bool × Result) :=
  [(1 < flags.toNat ∨ 7 < cls.toNat ∨ unit = 0x00 ∨ 240 < unit.toNat ∨ limit = 0x00 ∨ 4 < limit.toNat, .badArg),
   (s.lostTo flags .ops ⟨.tariff cls.toNat, 0⟩, .reservationLost)]

/-- The checks of FILTER_WRITE (R144). -/
def filterWriteChecks (filter enabled offset : Byte) (mask : BitVec 32) (chain cls : Byte) : List (Bool × Result) :=
  [(7 < filter.toNat ∨ 1 < enabled.toNat ∨ 63 < offset.toNat ∨ 1 < chain.toNat ∨ 7 < cls.toNat ∨
      (chain = 0x01 ∧ filter = 0x07) ∨ ∃ i ∈ List.range 32, mask.getLsbD i = true ∧ 63 < offset.toNat + i, .badArg)]

/-- TARIFF_WRITE (R132, R133) replaces the seven fields of a class and clears every port's reservation on it;
FILTER_WRITE (R144) replaces the fields of a filter. An argument out of range is answered BAD_ARG, and a conditional
TARIFF_WRITE whose port's reservation is not valid on the class RESERVATION_LOST (R195); neither changes anything. -/
def Obligations.TariffAndFilterWrite : Prop :=
  (∀ (s : State) (tag flags cls r1 r2 unit grace k1 k2 k3 d1 d2 l1 l2 limit : Byte),
    s.Takes .ops →
    RefusedBy (.tariffWrite .ops tag [flags, cls, r1, r2, unit, grace, k1, k2, k3, d1, d2, l1, l2, limit]) s .ops tag 0x1A
      (tariffWriteChecks s flags cls unit limit)) ∧
  (∀ (s : State) (tag filter enabled offset m1 m2 m3 m4 c1 c2 last chain cls : Byte),
    s.Takes .ops →
    RefusedBy (.filterWrite .ops tag [filter, enabled, offset, m1, m2, m3, m4, c1, c2, last, chain, cls]) s .ops tag 0x1B
      (filterWriteChecks filter enabled offset (m1 ++ m2 ++ m3 ++ m4) chain cls)) ∧
  (∀ (s : State) (cond : Bool) (tag cls r1 r2 unit grace k1 k2 k3 d1 d2 l1 l2 limit : Byte),
    s.Takes .ops → cls.toNat ≤ 7 → 1 ≤ unit.toNat → unit.toNat ≤ 240 → 1 ≤ limit.toNat → limit.toNat ≤ 4 →
    s.Allows cond .ops ⟨.tariff cls.toNat, 0⟩ →
    ∃ t, exec (.tariffWrite .ops tag [flagByte cond, cls, r1, r2, unit, grace, k1, k2, k3, d1, d2, l1, l2, limit]) s =
        .next t ∧
      t.tariff cls.toNat =
        ⟨r1.toNat * 256 + r2.toNat, unit.toNat, grace.toNat, k1.toNat * 65536 + k2.toNat * 256 + k3.toNat,
         d1.toNat * 256 + d2.toNat, l1.toNat * 256 + l2.toNat, limit.toNat⟩ ∧
      (∀ k, k ≠ cls.toNat → t.tariff k = s.tariff k) ∧
      AnsweredIf s t cond .ops tag 0x1A ⟨.ok, []⟩ [.tariff cls.toNat] toNone ∧
      t = { s with
        tariffs := t.tariffs, opsPort := t.opsPort, deskAPort := t.deskAPort, deskBPort := t.deskBPort,
        feed := t.feed }) ∧
  (∀ (s : State) (tag filter offset m1 m2 m3 m4 c1 c2 last cls : Byte) (enabled chain : Bool) (mask : BitVec 32),
    s.Takes .ops → filter.toNat ≤ 7 → offset.toNat ≤ 63 → cls.toNat ≤ 7 → (chain = true → filter.toNat ≠ 7) →
    mask = m1 ++ m2 ++ m3 ++ m4 →
    (∀ i, i < 32 → mask.getLsbD i = true → offset.toNat + i ≤ 63) →
    ∃ t, exec (.filterWrite .ops tag
        [filter, if enabled then 0x01 else 0x00, offset, m1, m2, m3, m4, c1, c2, last,
          if chain then 0x01 else 0x00, cls]) s = .next t ∧
      t.filter filter.toNat = ⟨enabled, offset.toNat, mask, c1 ++ c2, last, chain, cls.toNat⟩ ∧
      (∀ k, k ≠ filter.toNat → t.filter k = s.filter k) ∧
      Answered s t .ops tag 0x1B ⟨.ok, []⟩ [] toNone ∧
      t = { s with
        filters := t.filters, opsPort := t.opsPort, deskAPort := t.deskAPort, deskBPort := t.deskBPort,
        feed := t.feed })

/-- A serial is out of range (R104). -/
def badSerial (serial : Nat) : Bool := serial = 0 ∨ 16777214 < serial

/-- No receiver record is free (R104). -/
def poolFull (s : State) : Bool := ∀ i ∈ List.range 4096, s.receiver i ≠ none

/-- The checks of RECEIVER_ENROLL (R104). -/
def receiverEnrollChecks (s : State) (serial : Nat) : List (Bool × Result) :=
  [(badSerial serial, .badArg), (s.bySerial serial ≠ none, .exists), (poolFull s, .limit)]

/-- The slot of a command is not one of a rack's fitted slots (R105, R118, R124). -/
def badSlot (s : State) (r : Rack) (slot : Byte) : Bool :=
  31 < slot.toNat ∨ s.profile.slots ≤ slot.toNat ∨ s.rackFitted r = false

/-- The checks of ENROLL_SLOT (R105). An OCCUPIED slot without an ident, which no run leaves, is refused as one that is not
OCCUPIED (log entry 24). -/
def enrollSlotChecks (s : State) (r : Rack) (slot : Byte) : List (Bool × Result) :=
  let v := s.slot r slot.toNat
  let serial := (v.ident.map (·.serial)).getD 0
  [(badSlot s r slot, .badArg),
   (v.state ≠ .occupied ∨ v.ident = none, .wrongState),
   (badSerial serial, .badArg),
   (s.bySerial serial ≠ none, .exists),
   (poolFull s, .limit)]

/-- The checks of RECEIVER_RETIRE, and of RECEIVER_SERVICE (R106, R107): the record must be STOCK or in SERVICE. -/
def receiverChecks (s : State) (serial : Nat) : List (Bool × Result) :=
  [(badSerial serial, .badArg),
   (s.bySerial serial = none, .noRecord),
   ((s.bySerial serial).any (fun e => e.2.state ≠ .stock ∧ e.2.state ≠ .service) = true, .wrongState)]

/-- RECEIVER_ENROLL, ENROLL_SLOT, RECEIVER_RETIRE and RECEIVER_SERVICE (R104 to R107): the lowest free record becomes STOCK
with the serial, a record is freed, or a record moves between STOCK and SERVICE. Each command is refused by the first of its
checks that fails and then changes nothing; the answer to an ENROLL_SLOT of an OCCUPIED slot without an ident, which no run
leaves, is the model's inference (log entry 24). -/
def Obligations.PoolCommandsWrite : Prop :=
  (∀ (s : State) (tag a b c on : Byte),
    s.Takes .ops →
    let serial := a.toNat * 65536 + b.toNat * 256 + c.toNat
    RefusedBy (.receiverEnroll .ops tag [a, b, c]) s .ops tag 0x1E (receiverEnrollChecks s serial) ∧
    RefusedBy (.receiverRetire .ops tag [a, b, c]) s .ops tag 0x1F (receiverChecks s serial) ∧
    RefusedBy (.receiverService .ops tag [a, b, c, on]) s .ops tag 0x20
      ((1 < on.toNat, .badArg) :: receiverChecks s serial)) ∧
  (∀ (s : State) (r : Rack) (tag slot : Byte),
    s.Takes (deskOf r) →
    RefusedBy (.enrollSlot (deskOf r) tag [slot]) s (deskOf r) tag 0x36 (enrollSlotChecks s r slot)) ∧
  ∀ (s : State) (tag a b c : Byte),
    let serial := a.toNat * 65536 + b.toNat * 256 + c.toNat
    let writes (command : Instr) (p : Port) (code : Byte) (i : Nat) (v : Option Receiver) (fields : List Byte) : Prop :=
      ∃ t, exec command s = .next t ∧
        t.receiver i = v ∧ (∀ j, j ≠ i → t.receiver j = s.receiver j) ∧
        Answered s t p tag code ⟨.ok, fields⟩ [] toNone ∧
        t = { s with
          receivers := t.receivers, opsPort := t.opsPort, deskAPort := t.deskAPort, deskBPort := t.deskBPort,
          feed := t.feed }
    let free (i : Nat) : Prop := i ≤ 4095 ∧ s.receiver i = none ∧ ∀ j, j < i → s.receiver j ≠ none
    (∀ i, s.Takes .ops → 1 ≤ serial → serial ≤ 16777214 → s.bySerial serial = none → free i →
      writes (.receiverEnroll .ops tag [a, b, c]) .ops 0x1E i (some ⟨serial, .stock, 0, 0⟩) (byte2 i)) ∧
    (∀ (r : Rack) (slot : Byte) (i : Nat) (ident : Ident), s.Takes (deskOf r) → s.slotFitted r slot.toNat = true →
      slot.toNat ≤ 31 → (s.slot r slot.toNat).state = .occupied → (s.slot r slot.toNat).ident = some ident →
      1 ≤ ident.serial → ident.serial ≤ 16777214 → s.bySerial ident.serial = none → free i →
      writes (.enrollSlot (deskOf r) tag [slot]) (deskOf r) 0x36 i (some ⟨ident.serial, .stock, ident.battery, 0⟩)
        (byte2 i ++ byte3 ident.serial)) ∧
    (∀ (i : Nat) (v : Receiver), s.Takes .ops → 1 ≤ serial → serial ≤ 16777214 → s.bySerial serial = some (i, v) →
      v.state = .stock ∨ v.state = .service →
      writes (.receiverRetire .ops tag [a, b, c]) .ops 0x1F i none []) ∧
    (∀ (i : Nat) (v : Receiver) (on : Bool), s.Takes .ops → 1 ≤ serial → serial ≤ 16777214 → s.bySerial serial = some (i, v) →
      s.receiver i = some v →
      v.state = .stock ∨ v.state = .service →
      writes (.receiverService .ops tag [a, b, c, if on then 0x01 else 0x00]) .ops 0x20 i
        (some
          (if on then { v with state := .service }
           else { v with state := .stock, issues := if v.state = .service then 0 else v.issues })) [])

/-- Filters `k` to `e` are a group (R145): `k` is 0 or follows a filter whose chain flag is clear, and `e` is the first
from `k` on whose chain flag is clear, or filter 7. -/
def IsGroup (s : State) (k e : Nat) : Prop :=
  k ≤ e ∧ e ≤ 7 ∧ (k = 0 ∨ (s.filter (k - 1)).chain = false) ∧
    (∀ j, k ≤ j → j < e → (s.filter j).chain = true) ∧ (e = 7 ∨ (s.filter e).chain = false)

/-- The group of filters `k` to `e` matches a credential (R146): every member is enabled, with a mask that is not zero and
whose selected positions lie below the credential's length; the CRC of the selected bytes, member by member, is the last
member's compare CRC; and the byte at the last member's highest selected position is its last-byte value. -/
def GroupMatches (s : State) (k e : Nat) (credential : List Byte) : Prop :=
  (∀ j, k ≤ j → j ≤ e →
    (s.filter j).enabled = true ∧ (s.filter j).mask ≠ 0 ∧
      ∀ i, i < 32 → (s.filter j).mask.getLsbD i = true → (s.filter j).offset + i < credential.length) ∧
  crc16 ((List.range' k (e + 1 - k)).flatMap fun j => (List.range 32).filterMap fun i =>
    if (s.filter j).mask.getLsbD i then credential[(s.filter j).offset + i]? else none) = (s.filter e).compare ∧
  ∃ i, i < 32 ∧ (s.filter e).mask.getLsbD i = true ∧ (∀ j, i < j → (s.filter e).mask.getLsbD j = false) ∧
    credential[(s.filter e).offset + i]? = some (s.filter e).lastByte

/-- ACCOUNT_OPEN and ACCOUNT_FIND (R134, R135, R136, R140): a holder not yet known opens the lowest FREE record whose
reference no buffer holds, with a snapshot of the class the filters give; a holder who is known is answered with the
account, and nothing changes. With no record that can be opened ACCOUNT_OPEN is answered LIMIT, and a holder who is not
known is answered NO_RECORD by ACCOUNT_FIND; neither changes anything. The class is that of the last member of the first
group that matches, 0 if none does (R145 to R147). R136 says that the opening clears no reservation, since none can be valid
on a FREE record: that the write clears one that stood there is the model's choice (log entry 32). -/
def Obligations.AccountsOpen : Prop :=
  (∀ (s : State) (credential : List Byte),
    (∀ k e, IsGroup s k e → GroupMatches s k e credential →
      (∀ j d, IsGroup s j d → j < k → ¬ GroupMatches s j d credential) →
      s.classify credential = (s.filter e).tariffClass) ∧
    ((∀ k e, IsGroup s k e → ¬ GroupMatches s k e credential) → s.classify credential = 0)) ∧
  ∀ (s : State) (p : Port) (tag : Byte) (credential : List Byte),
    s.Takes p → 16 ≤ credential.length → credential.length ≤ 64 →
    let digest := crc16 credential
    let ports (t : State) : State := { s with
      opsPort := t.opsPort, deskAPort := t.deskAPort, deskBPort := t.deskBPort, feed := t.feed }
    (∀ (r : Rack) (i : Nat), p = deskOf r → s.byDigest digest = none → i ≤ 1023 →
      s.canOpen i = true → (∀ j, j < i → s.canOpen j = false) →
      let cls := s.classify credential
      ∃ t, exec (.accountOpen p tag credential) s = .next t ∧
        t.account i =
          ⟨(s.account i).generation,
           some ⟨cls, s.tariff cls, 0, [], 0, 0, false, ⟨s.minute, s.day⟩, r, digest⟩⟩ ∧
        (∀ j, j ≠ i → t.account j = s.account j) ∧
        Answered s t p tag 0x30
          ⟨.ok, byte2 i ++ byte1 (s.account i).generation ++ byte1 cls ++ byte2 (s.tariff cls).deposit⟩
          [.account i] toNone ∧
        t = { ports t with accounts := t.accounts }) ∧
    (∀ (r : Rack) ref o, p = deskOf r → s.byDigest digest = some (ref, o) →
      ∃ t, exec (.accountOpen p tag credential) s = .next t ∧
        Answered s t p tag 0x30 ⟨.exists, byte2 ref.index ++ byte1 ref.generation ++ byte1 o.tariffClass⟩ [] toNone ∧
        t = ports t) ∧
    (s.byDigest digest = none → Answers (.accountFind p tag credential) s p tag 0x42 ⟨.noRecord, []⟩) ∧
    (∀ r, p = deskOf r → s.byDigest digest = none → (∀ i, i ≤ 1023 → s.canOpen i = false) →
      Answers (.accountOpen p tag credential) s p tag 0x30 ⟨.limit, []⟩) ∧
    (∀ ref o, s.byDigest digest = some (ref, o) →
      ∃ t, exec (.accountFind p tag credential) s = .next t ∧
        Answered s t p tag 0x42
          ⟨.ok, byte2 ref.index ++ byte1 ref.generation ++ byte1 o.tariffClass ++ byte1 o.entries.length⟩ [] toNone ∧
        t = ports t)

/-- The records whose reservations a write of an account clears: the account itself, unless its reserved view stays as it
was (R193). -/
def accountRecords (s : State) (i : Nat) (a : Account) : List RecordName :=
  if a.view = (s.account i).view then [] else [.account i]

/-- A reference names no OPEN account (R129). -/
def notOpen (s : State) (ref : AccountRef) : Bool :=
  (s.account ref.index).account = none ∨ (s.account ref.index).generation ≠ ref.generation

/-- The checks of ACCOUNT_ADJUST (R138). -/
def accountAdjustChecks (s : State) (p : Port) (flags : Byte) (ref : AccountRef) : List (Bool × Result) :=
  [(1 < flags.toNat ∨ 1023 < ref.index, .badArg),
   (s.lostTo flags p ⟨.account ref.index, ref.generation⟩, .reservationLost),
   (notOpen s ref, .noRecord)]

/-- ACCOUNT_ADJUST (R131, R138): the amount is added to the running charge, the sum is held to 0 and to 4,294,967,295, and a
clamp at the top sets the saturated flag; nothing else of the account changes. Otherwise the command is refused by the first
of its checks that fails and changes nothing, with RESERVATION_LOST if it is conditional and the port's reservation is not
valid on the account with that generation (R195). -/
def Obligations.AccountAdjustAdds : Prop :=
  (∀ (s : State) (p : Port) (tag flags hi lo g a1 a2 a3 a4 : Byte),
    s.Takes p →
    RefusedBy (.accountAdjust p tag [flags, hi, lo, g, a1, a2, a3, a4]) s p tag 0x40
      (accountAdjustChecks s p flags ⟨hi.toNat * 256 + lo.toNat, g.toNat⟩)) ∧
  ∀ (s : State) (p : Port) (cond : Bool) (tag hi lo g a1 a2 a3 a4 : Byte) (o : OpenAccount),
    s.Takes p → hi.toNat * 256 + lo.toNat ≤ 1023 →
    s.Allows cond p ⟨.account (hi.toNat * 256 + lo.toNat), g.toNat⟩ →
    s.account (hi.toNat * 256 + lo.toNat) = ⟨g.toNat, some o⟩ →
    let i := hi.toNat * 256 + lo.toNat
    let sum : Int := o.running + (a1 ++ a2 ++ a3 ++ a4).toInt
    let after : Account :=
      ⟨g.toNat,
       some { o with
         running := if sum < 0 then 0 else if 4294967295 < sum then 4294967295 else sum.toNat
         saturated := o.saturated || decide (4294967295 < sum) }⟩
    ∃ t, exec (.accountAdjust p tag [flagByte cond, hi, lo, g, a1, a2, a3, a4]) s = .next t ∧
      t.account i = after ∧ (∀ j, j ≠ i → t.account j = s.account j) ∧
      (∃ fields, AnsweredIf s t cond p tag 0x40 ⟨.ok, fields⟩ (accountRecords s i after) toNone ∧
        ∀ v, after.account = some v → fields = byte4 v.running ++ [if v.saturated then 0x01 else 0x00]) ∧
      t = { s with
        accounts := t.accounts, opsPort := t.opsPort, deskAPort := t.deskAPort, deskBPort := t.deskBPort,
        feed := t.feed }

/-- The settlement of an account into the buffer of a rack (R162, R163): total, due and refund, with the close time. -/
def settled (s : State) (ref : AccountRef) (o : OpenAccount) (r : Rack) : Settlement :=
  ⟨ref, o.tariffClass, o.snapshot.deposit, o.running,
   if o.snapshot.deposit ≤ o.running then o.running - o.snapshot.deposit else 0,
   if o.snapshot.deposit ≤ o.running then 0 else o.snapshot.deposit - o.running,
   o.served, o.losses, o.saturated, r, ⟨s.minute, s.day⟩⟩

/-- The report counters of a class with a settlement gathered in, each saturating by itself (R168). -/
def gathered (c : ClassReport) (v : Settlement) : ClassReport :=
  ⟨min 4294967295 (c.settled + 1), min 4294967295 (c.charged + v.total), min 4294967295 (c.due + v.due),
   min 4294967295 (c.refunded + v.refund)⟩

/-- From `s` to `t` an account was settled into a rack's buffer (R163, R168): the buffer is FULL with its settlement, the
record is FREE with its generation increased, and its class's report counters gathered it. -/
def Settled (s t : State) (ref : AccountRef) (r : Rack) (v : Settlement) : Prop :=
  t.buffer r = some v ∧ (∀ x, x ≠ r → t.buffer x = s.buffer x) ∧
    t.account ref.index = ⟨((s.account ref.index).generation + 1) % 256, none⟩ ∧
    (∀ j, j ≠ ref.index → t.account j = s.account j) ∧
    (∀ k, t.report k = if k = v.tariffClass then gathered (s.report k) v else s.report k)

/-- The charge of one receiver before the ceiling, step by step as R155 gives it. -/
def chargeBeforeCeiling (w : Tariff) (i di m dm : Nat) : Nat :=
  let e := if i ≤ m then m - i else 0
  let b := if w.grace < e then e - w.grace else 0
  let n := if b = 0 then 0 else (b + w.unit - 1) / w.unit
  let gross := n * w.rate
  let d := if di ≤ dm then dm - di + 1 else 1
  if w.dayCap ≠ 0 then min gross (w.dayCap * d) else gross

/-- An account with an amount charged for a receiver: clamped, the entry removed, the served count increased (R153, R156,
R160); `clamped` says that the amount was itself clamped. -/
def chargedFor (o : OpenAccount) (amount : Nat) (clamped : Bool) (i : Nat) : OpenAccount :=
  { o with
    running := min 4294967295 (o.running + amount)
    saturated := o.saturated || clamped || decide (4294967295 < o.running + amount)
    entries := o.entries.filter fun e => e.receiver ≠ i
    served := min 4294967295 (o.served + 1) }

/-- The records whose reservations the loss of a listener clears: the language, unless it has none to lose (R191). -/
def listenerRecords (s : State) (l : Nat) : List RecordName :=
  if (s.language l).listeners = 0 then [] else [.language l]

/-- From `s` to `u` the return HELD in slot `n` of a rack was resumed (R166, R153): it is charged to its recorded return time
and commits, and settles its account into the buffer if it takes the account's only entry. -/
def ResumesSlot (s u : State) (r : Rack) (n : Nat) : Prop :=
  ∀ (ident : Ident) (time issued : Stamp) (i l : Nat) (w : Receiver) (ref : AccountRef) (rack : Rack) (o : OpenAccount),
    (s.slot r n).ident = some ident → (s.slot r n).returned = some time → s.bySerial ident.serial = some (i, w) →
    w.state = .issued ref l rack issued → s.account ref.index = ⟨ref.generation, some o⟩ →
    let exact := chargeBeforeCeiling o.snapshot issued.minute issued.day time.minute time.day
    let amount := min 4294967295 exact
    let after := chargedFor o amount (decide (4294967295 < exact)) i
    let closes : Bool := o.entries.map (·.receiver) = [i]
    let made := settled s ref after r
    let records := accountRecords s ref.index ⟨ref.generation, some after⟩ ++ listenerRecords s l
    u.slot r n =
      { s.slot r n with
        state := .occupied, ident := some { ident with mark := .stock }, returned := none, miss := false } ∧
    (∀ m, m ≠ n → u.slot r m = s.slot r m) ∧ (u.rack r).queue = (s.rack r).queue ∧ (u.rack r).bus = (s.rack r).bus ∧
    (u.rack r).due = (s.rack r).due ∧ (∀ x, x ≠ r → u.rack x = s.rack x) ∧
    u.receiver i =
      some { w with
        state :=
          if s.profile.serviceInterval ≠ 0 ∧ s.profile.serviceInterval ≤ w.issues then .service else .stock } ∧
    (∀ j, j ≠ i → u.receiver j = s.receiver j) ∧
    u.language l = { s.language l with listeners := (s.language l).listeners - 1 } ∧
    (∀ k, k ≠ l → u.language k = s.language k) ∧
    (if closes then Settled s u ref r made
     else
       u.account ref.index = ⟨ref.generation, some after⟩ ∧ (∀ j, j ≠ ref.index → u.account j = s.account j) ∧
         (∀ x, u.buffer x = s.buffer x) ∧ u.reports = s.reports) ∧
    Told s u (if closes then records ++ [.account ref.index] else records)
      (toDesk r
        (.returnDone n w.serial ref amount closes ::
          if closes then [.settlementReady ref made.due made.refund] else [])) ∧
    u = { s with
      receivers := u.receivers, accounts := u.accounts, languages := u.languages, bufferA := u.bufferA,
      bufferB := u.bufferB, reports := u.reports, rackA := u.rackA, rackB := u.rackB, opsPort := u.opsPort,
      deskAPort := u.deskAPort, deskBPort := u.deskBPort }

/-- The slots of a rack in the order given are resumed one after another, each HELD one while the buffer is EMPTY (R166). -/
def Resumes (r : Rack) : List Nat → State → State → Prop
  | [], s, t => t = s
  | n :: rest, s, t =>
    if s.buffer r = none ∧ (s.slot r n).state = .held then ∃ u, ResumesSlot s u r n ∧ Resumes r rest u t
    else Resumes r rest s t

/-- The checks of ACCOUNT_CLOSE at the desk of a rack (R142). -/
def accountCloseChecks (s : State) (r : Rack) (flags : Byte) (ref : AccountRef) : List (Bool × Result) :=
  [(1 < flags.toNat ∨ 1023 < ref.index, .badArg),
   (s.rackFitted r = false, .wrongState),
   (s.lostTo flags (deskOf r) ⟨.account ref.index, ref.generation⟩, .reservationLost),
   (notOpen s ref, .noRecord),
   ((s.account ref.index).account.any (fun o => o.entries ≠ []) = true, .holdsUnits),
   (s.buffer r ≠ none, .settleBusy)]

/-- ACCOUNT_CLOSE and SETTLEMENT_TAKE (R142, R163, R165, R166): an account without entries is settled into the EMPTY buffer
of the sending desk's rack; a FULL buffer is emptied into the reply; then the rack's HELD slots are resumed in ascending
number until one fills the buffer again, and with no HELD slot on the rack nothing else happens. ACCOUNT_CLOSE is refused by
the first of its checks that fails, HOLDS_UNITS and SETTLE_BUSY among them, with RESERVATION_LOST if it is conditional and
the port's reservation is not valid on the account (R195); SETTLEMENT_TAKE of an EMPTY buffer is answered NO_RECORD, or
WRONG_STATE on a rack that is not fitted; neither then changes anything. -/
def Obligations.SettlementsAreMadeAndTaken : Prop :=
  (∀ (s : State) (r : Rack) (tag flags hi lo g : Byte),
    s.Takes (deskOf r) →
    RefusedBy (.accountClose (deskOf r) tag [flags, hi, lo, g]) s (deskOf r) tag 0x31
      (accountCloseChecks s r flags ⟨hi.toNat * 256 + lo.toNat, g.toNat⟩)) ∧
  (∀ (s : State) (r : Rack) (tag : Byte),
    s.Takes (deskOf r) → s.buffer r = none →
    Answers (.settlementTake (deskOf r) tag []) s (deskOf r) tag 0x33
      ⟨if s.rackFitted r then .noRecord else .wrongState, []⟩) ∧
  (∀ (s : State) (r : Rack) (cond : Bool) (tag hi lo g : Byte) (o : OpenAccount),
    let ref : AccountRef := ⟨hi.toNat * 256 + lo.toNat, g.toNat⟩
    let p := deskOf r
    s.Takes p → ref.index ≤ 1023 → s.rackFitted r = true →
    s.Allows cond p ⟨.account ref.index, ref.generation⟩ →
    s.account ref.index = ⟨ref.generation, some o⟩ → o.entries = [] → s.buffer r = none →
    let v := settled s ref o r
    ∃ t, exec (.accountClose p tag [flagByte cond, hi, lo, g]) s = .next t ∧
      Settled s t ref r v ∧
      AnsweredIf s t cond p tag 0x31 ⟨.ok, [hi, lo, g] ++ byte4 v.due ++ byte4 v.refund⟩ [.account ref.index]
        (toDesk r [.settlementReady ref v.due v.refund]) ∧
      t = { s with
        accounts := t.accounts, bufferA := t.bufferA, bufferB := t.bufferB, reports := t.reports,
        opsPort := t.opsPort, deskAPort := t.deskAPort, deskBPort := t.deskBPort, feed := t.feed }) ∧
  (∀ (s : State) (r : Rack) (tag : Byte) (v : Settlement),
    s.Takes (deskOf r) → s.buffer r = some v → (∀ n, n ≤ 31 → (s.slot r n).state ≠ .held) →
    ∃ t, exec (.settlementTake (deskOf r) tag []) s = .next t ∧
      t.buffer r = none ∧ (∀ x, x ≠ r → t.buffer x = s.buffer x) ∧
      Answered s t (deskOf r) tag 0x33 ⟨.ok, v.bytes⟩ [] toNone ∧
      t = { s with
        bufferA := t.bufferA, bufferB := t.bufferB, opsPort := t.opsPort, deskAPort := t.deskAPort,
        deskBPort := t.deskBPort, feed := t.feed }) ∧
  (∀ (s : State) (r : Rack) (tag : Byte) (v : Settlement),
    s.Takes (deskOf r) → s.buffer r = some v →
    let emptied : State :=
      match r with
      | .a => { s with bufferA := none }
      | .b => { s with bufferB := none }
    ∃ u t, Resumes r (List.range 32) emptied u ∧ exec (.settlementTake (deskOf r) tag []) s = .next t ∧
      Answered u t (deskOf r) tag 0x33 ⟨.ok, v.bytes⟩ [] toNone ∧
      t = { u with
        opsPort := t.opsPort, deskAPort := t.deskAPort, deskBPort := t.deskBPort, feed := t.feed })

/-- The work of a rack that comes before the scan (R110, steps 2 and 3): the lowest IDENTIFYING or RETURNING slot has its
IDENT, or its MARK stock once it holds an ident; otherwise the head of the issue queue has its PRESET, which writes the
channel the language has now (channel 0 if it has none) and its code (R120), or its MARK hired once the PRESET is done. -/
def workOf (s : State) (r : Rack) : Option Transaction :=
  let arrivals := (List.range 32).filter fun n => (s.slot r n).state = .identifying ∨ (s.slot r n).state = .returning
  match arrivals, (s.rack r).queue with
  | n :: _, _ =>
    some (if (s.slot r n).state = .returning then .markReturn n
      else if (s.slot r n).ident = none then .ident n else .markRepair n)
  | [], q :: _ =>
    some (if q.preset = none then
        .preset q.slot ((s.language q.language).channel.getD 0) (s.language q.language).code
      else .markHired q.slot)
  | [], [] => none

/-- The engine of a rack whose bus had become idle, with the slots `due` for a probe, has chosen its next transaction (R110):
the work before the scan, or the PROBE of the lowest due slot, or none. -/
def Chosen (t : State) (r : Rack) (due : List Nat) : Prop :=
  match workOf t r, due with
  | some w, _ => (t.rack r).bus = .busy w ∧ (t.rack r).due = due
  | none, n :: rest => (t.rack r).bus = .busy (.probe n) ∧ (t.rack r).due = rest
  | none, [] => (t.rack r).bus = .idle ∧ (t.rack r).due = []

/-- The slots due on a rack after slot `n` has been in the states given, one after another: a slot that leaves the probed
states of R112 is due no more (log entry 20). -/
def dueAfter (s : State) (r : Rack) (n : Nat) (states : List SlotState) : List Nat :=
  if states.all fun k => [SlotState.empty, .arriving, .occupied, .departing, .issuing, .held].contains k then (s.rack r).due
  else (s.rack r).due.filter fun m => m ≠ n

/-- The receiver record whose serial a slot's ident names. -/
def dockedRecord (s : State) (v : Slot) : Option Receiver :=
  (v.ident.bind fun d => s.bySerial d.serial).map (·.2)

/-- The checks of ISSUE at the desk of a rack (R118). -/
def issueChecks (s : State) (r : Rack) (ref : AccountRef) (slot lang : Byte) : List (Bool × Result) :=
  let v := s.slot r slot.toNat
  let l := s.language lang.toNat
  [(1023 < ref.index ∨ badSlot s r slot = true ∨ 31 < lang.toNat, .badArg),
   (notOpen s ref, .noRecord),
   ((s.account ref.index).account.any (fun o => o.snapshot.issueLimit ≤ o.entries.length) = true, .limit),
   (v.state ≠ .occupied ∨ (dockedRecord s v).map (·.state) ≠ some .stock, .wrongState),
   (v.ident.any (fun d => d.battery < s.profile.batteryThreshold) = true, .lowBattery),
   (l.defined = false ∨ l.channel = none, .noChannel),
   (4 ≤ (s.rack r).queue.length, .queueFull)]

/-- ISSUE (R118, R119): the receiver becomes PENDING, a PENDING entry joins the account, the language gains a listener,
the slot becomes ISSUING, and the issue joins the tail of the rack's queue; an idle engine chooses its next transaction
(R110). Otherwise the command is refused by the first check of R118 that fails and changes nothing. -/
def Obligations.IssueAccepted : Prop :=
  (∀ (s : State) (r : Rack) (tag hi lo g slot lang : Byte),
    s.Takes (deskOf r) →
    RefusedBy (.issue (deskOf r) tag [hi, lo, g, slot, lang]) s (deskOf r) tag 0x32
      (issueChecks s r ⟨hi.toNat * 256 + lo.toNat, g.toNat⟩ slot lang)) ∧
  ∀ (s : State) (r : Rack) (tag hi lo g slot lang : Byte) (o : OpenAccount) (i : Nat) (v : Receiver) (ident : Ident),
    let ref : AccountRef := ⟨hi.toNat * 256 + lo.toNat, g.toNat⟩
    let p := deskOf r
    let n := slot.toNat
    let l := lang.toNat
    s.Takes p → ref.index ≤ 1023 → n ≤ 31 → s.slotFitted r n = true → l ≤ 31 →
    s.account ref.index = ⟨ref.generation, some o⟩ → o.entries.length < o.snapshot.issueLimit →
    (s.slot r n).state = .occupied → (s.slot r n).ident = some ident → s.bySerial ident.serial = some (i, v) →
    v.state = .stock → s.profile.batteryThreshold ≤ ident.battery →
    (s.language l).defined = true → (s.language l).channel ≠ none → (s.rack r).queue.length < 4 →
    ∃ t, exec (.issue p tag [hi, lo, g, slot, lang]) s = .next t ∧
      t.receiver i = some { v with state := .pending ref l r } ∧ (∀ j, j ≠ i → t.receiver j = s.receiver j) ∧
      t.account ref.index = ⟨ref.generation, some { o with entries := o.entries ++ [⟨i, false⟩] }⟩ ∧
      (∀ j, j ≠ ref.index → t.account j = s.account j) ∧
      t.language l = { s.language l with listeners := (s.language l).listeners + 1 } ∧
      (∀ k, k ≠ l → t.language k = s.language k) ∧
      t.slot r n = { s.slot r n with state := .issuing, issue := some ⟨ref, l⟩, miss := false } ∧
      (∀ m, m ≠ n → t.slot r m = s.slot r m) ∧
      (t.rack r).queue = (s.rack r).queue ++ [⟨n, ref, l, none⟩] ∧
      (∀ x, x ≠ r → t.rack x = s.rack x) ∧
      ((s.rack r).bus ≠ .idle → (t.rack r).bus = (s.rack r).bus ∧ (t.rack r).due = (s.rack r).due) ∧
      ((s.rack r).bus = .idle → Chosen t r (s.rack r).due) ∧
      Answered s t p tag 0x32 ⟨.accepted, []⟩ [.account ref.index, .language l] toNone ∧
      t = { s with
        receivers := t.receivers, accounts := t.accounts, languages := t.languages, rackA := t.rackA,
        rackB := t.rackB, opsPort := t.opsPort, deskAPort := t.deskAPort, deskBPort := t.deskBPort, feed := t.feed }

/-- The rack whose buffer receives the settlement of a closing loss declared at a port: the declaring desk's, or from the
operations port the issuing rack, rack A when that is not fitted (R159). -/
def settlingRack (s : State) (p : Port) (issuing : Rack) : Rack :=
  match p with
  | .ops => if s.rackFitted issuing then issuing else .a
  | .deskA => .a
  | .deskB => .b

/-- The checks of LOSS_DECLARE (R159). An ISSUED receiver whose account is not OPEN, which only a loss of the retained memory
leaves, is refused as one that is not ISSUED (log entry 23). -/
def lossDeclareChecks (s : State) (p : Port) (serial : Nat) : List (Bool × Result) :=
  let found := s.bySerial serial
  [(badSerial serial, .badArg),
   (∃ r ∈ [Rack.a, .b], p = deskOf r ∧ s.rackFitted r = false, .wrongState),
   (found = none, .noRecord),
   (found.any (fun e =>
      match e.2.state with
      | .issued ref _ _ _ => s.returnInHand serial ∨ notOpen s ref = true
      | .stock | .pending _ _ _ | .lost _ _ | .service => true) = true, .wrongState),
   (found.any (fun e =>
      match e.2.state with
      | .issued ref _ issuing _ =>
        (s.account ref.index).account.any (fun o => o.entries.map (·.receiver) = [e.1]) = true ∧
          s.buffer (settlingRack s p issuing) ≠ none
      | .stock | .pending _ _ _ | .lost _ _ | .service => false) = true, .settleBusy)]

/-- LOSS_DECLARE (R159, R160): the charge to this moment and the loss charge are added to the account, the receiver becomes
LOST, its entry and its listener go, and a loss that takes the last entry settles the account into the buffer of the
declaring desk's rack, or from the operations port of the issuing rack. Otherwise the command is refused by the first of its
checks that fails and changes nothing; that an ISSUED receiver whose account is not OPEN, which only a loss of the retained
memory leaves, is refused with WRONG_STATE is the model's choice (log entry 23). -/
def Obligations.LossIsCharged : Prop :=
  (∀ (s : State) (p : Port) (tag a b c : Byte),
    s.Takes p →
    RefusedBy (.lossDeclare p tag [a, b, c]) s p tag 0x41
      (lossDeclareChecks s p (a.toNat * 65536 + b.toNat * 256 + c.toNat))) ∧
  ∀ (s : State) (p : Port) (tag a b c : Byte) (i l : Nat) (v : Receiver) (ref : AccountRef) (issuing r : Rack)
      (issued : Stamp) (o : OpenAccount),
    let serial := a.toNat * 65536 + b.toNat * 256 + c.toNat
    s.Takes p → 1 ≤ serial → serial ≤ 16777214 → s.bySerial serial = some (i, v) →
    v.state = .issued ref l issuing issued → s.returnInHand serial = false →
    s.account ref.index = ⟨ref.generation, some o⟩ →
    (∀ x, p = deskOf x → s.rackFitted x = true) →
    r = settlingRack s p issuing →
    let exact := chargeBeforeCeiling o.snapshot issued.minute issued.day s.minute s.day
    let hire := min 4294967295 exact
    let amount := min 4294967295 (hire + o.snapshot.lossCharge)
    let after : OpenAccount :=
      { chargedFor o amount (decide (4294967295 < exact) || decide (4294967295 < hire + o.snapshot.lossCharge)) i with
        losses := min 4294967295 (o.losses + 1) }
    let lost (t : State) : Prop :=
      t.receiver i = some { v with state := .lost ref issuing } ∧ (∀ j, j ≠ i → t.receiver j = s.receiver j) ∧
      t.language l = { s.language l with listeners := (s.language l).listeners - 1 } ∧
      (∀ k, k ≠ l → t.language k = s.language k) ∧
      t = { s with
        receivers := t.receivers, accounts := t.accounts, languages := t.languages, bufferA := t.bufferA,
        bufferB := t.bufferB, reports := t.reports, opsPort := t.opsPort, deskAPort := t.deskAPort,
        deskBPort := t.deskBPort, feed := t.feed }
    let records := accountRecords s ref.index ⟨ref.generation, some after⟩ ++ listenerRecords s l
    (after.entries ≠ [] →
      ∃ t, exec (.lossDeclare p tag [a, b, c]) s = .next t ∧ lost t ∧
        t.account ref.index = ⟨ref.generation, some after⟩ ∧ (∀ j, j ≠ ref.index → t.account j = s.account j) ∧
        t.bufferA = s.bufferA ∧ t.bufferB = s.bufferB ∧ t.reports = s.reports ∧
        Answered s t p tag 0x41
          ⟨.ok, byte2 ref.index ++ byte1 ref.generation ++ byte4 amount ++ 0x00 :: byte4 0 ++ byte4 0⟩ records
          toNone) ∧
    (o.entries.map (·.receiver) = [i] → s.buffer r = none →
      ∃ t, exec (.lossDeclare p tag [a, b, c]) s = .next t ∧ lost t ∧
        Settled s t ref r (settled s ref after r) ∧
        Answered s t p tag 0x41
          ⟨.ok, byte2 ref.index ++ byte1 ref.generation ++ byte4 amount ++ 0x01 ::
            (byte4 (settled s ref after r).due ++ byte4 (settled s ref after r).refund)⟩
          (records ++ [.account ref.index])
          (toDesk r [.settlementReady ref (settled s ref after r).due (settled s ref after r).refund]))

/-- The event in which a transaction on a rack's bus ends with LINE_FAULT. -/
def lineFaultOf (r : Rack) : Transaction → Instr
  | .probe n => .probeOutcome r n .lineFault
  | .ident n => .identOutcome r n .lineFault
  | .preset _ _ _ => .presetOutcome r .lineFault
  | .markHired _ => .markHiredOutcome r .lineFault
  | .markReturn n => .returnMarkOutcome r n .lineFault
  | .markRepair n => .repairMarkOutcome r n .lineFault

/-- The event in which a transaction on a rack's bus ends with NO_ANSWER. -/
def noAnswerOf (r : Rack) : Transaction → Instr
  | .probe n => .probeOutcome r n .noAnswer
  | .ident n => .identOutcome r n .noAnswer
  | .preset _ _ _ => .presetOutcome r .noAnswer
  | .markHired _ => .markHiredOutcome r .noAnswer
  | .markReturn n => .returnMarkOutcome r n .noAnswer
  | .markRepair n => .repairMarkOutcome r n .noAnswer

/-- The event in which a transaction on a rack's bus ends with DONE; an IDENT returns `ident`. -/
def doneOf (r : Rack) (ident : Ident) : Transaction → Instr
  | .probe n => .probeOutcome r n .done
  | .ident n => .identOutcome r n (.done ident)
  | .preset _ _ _ => .presetOutcome r .done
  | .markHired _ => .markHiredOutcome r .done
  | .markReturn n => .returnMarkOutcome r n .done
  | .markRepair n => .repairMarkOutcome r n .done

/-- From `s` to `u` the issue of a queue entry failed with cause RESET (R122, R125): its receiver is STOCK, its account's
entry and its listener are gone, it has left the queue, and ISSUE_FAILED is sent. An entry without its records, which only a
loss of the retained memory leaves, changes nothing (log entry 23). -/
def FailsQueued (s u : State) (r : Rack) (q : QueuedIssue) : Prop :=
  match (s.slot r q.slot).issue, (s.slot r q.slot).ident.bind fun d => s.bySerial d.serial with
  | some ⟨ref, l⟩, some (i, w) =>
    let a := s.account ref.index
    let after : Account :=
      if a.generation = ref.generation then
        { a with account := a.account.map fun o => { o with entries := o.entries.filter fun e => e.receiver ≠ i } }
      else a
    u.receiver i = some { w with state := .stock } ∧ (∀ j, j ≠ i → u.receiver j = s.receiver j) ∧
      u.account ref.index = after ∧ (∀ j, j ≠ ref.index → u.account j = s.account j) ∧
      u.language l = { s.language l with listeners := (s.language l).listeners - 1 } ∧
      (∀ k, k ≠ l → u.language k = s.language k) ∧
      u.rack r = { s.rack r with queue := (s.rack r).queue.filter fun x => x.slot ≠ q.slot } ∧
      (∀ x, x ≠ r → u.rack x = s.rack x) ∧
      Told s u (accountRecords s ref.index after ++ listenerRecords s l)
        (toDesk r [.issueFailed q.slot w.serial ref l .reset]) ∧
      u = { s with
        receivers := u.receivers, accounts := u.accounts, languages := u.languages, rackA := u.rackA, rackB := u.rackB,
        opsPort := u.opsPort, deskAPort := u.deskAPort, deskBPort := u.deskBPort }
  | _, _ => u = s

/-- The issues of a list fail one after another (R125, step 2). -/
def FailsEach (r : Rack) : List QueuedIssue → State → State → Prop
  | [], s, t => t = s
  | q :: rest, s, t => ∃ u, FailsQueued s u r q ∧ FailsEach r rest u t

/-- SLOT_CLEAR and RACK_RESET (R124, R125): a FAULTED slot becomes EMPTY with every field cleared; a rack engine has every
slot EMPTY, an empty issue queue and every fitted slot due; the queued issues fail with cause RESET from the head on, and
with none queued no record is touched. The outcome of a transaction in flight at the reset, whatever it is, is discarded
when it comes: the bus is free, the engine chooses its next transaction, and nothing else changes. A slot that is not fitted
is answered BAD_ARG, one that is not FAULTED WRONG_STATE, and so is a reset of a rack that is not fitted; nothing then
changes. That a queue entry without its records, which only a loss of the retained memory leaves, fails without any change
is the model's choice (log entry 23). -/
def Obligations.SlotCommandsClear : Prop :=
  (∀ (s : State) (r : Rack) (tag slot : Byte),
    s.Takes (deskOf r) →
    RefusedBy (.slotClear (deskOf r) tag [slot]) s (deskOf r) tag 0x34
      [(badSlot s r slot, .badArg), ((s.slot r slot.toNat).state ≠ .faulted, .wrongState)] ∧
    RefusedBy (.rackReset (deskOf r) tag []) s (deskOf r) tag 0x35 [(s.rackFitted r = false, .wrongState)]) ∧
  (∀ (s : State) (r : Rack) (tag slot : Byte),
    s.Takes (deskOf r) →
    (slot.toNat ≤ 31 → s.slotFitted r slot.toNat = true → (s.slot r slot.toNat).state = .faulted →
      ∃ t, exec (.slotClear (deskOf r) tag [slot]) s = .next t ∧
        t.slot r slot.toNat = ⟨.empty, none, none, none, false, false⟩ ∧
        (∀ n, n ≠ slot.toNat → t.slot r n = s.slot r n) ∧
        t.rack r = { s.rack r with slots := (t.rack r).slots } ∧ (∀ x, x ≠ r → t.rack x = s.rack x) ∧
        Answered s t (deskOf r) tag 0x34 ⟨.ok, []⟩ [] toNone ∧
        t = { s with
          rackA := t.rackA, rackB := t.rackB, opsPort := t.opsPort, deskAPort := t.deskAPort,
          deskBPort := t.deskBPort, feed := t.feed }) ∧
    (s.rackFitted r = true → 0 < s.profile.slots →
      ∃ t notices, exec (.rackReset (deskOf r) tag []) s = .next t ∧
        t.rack r =
          (match (s.rack r).bus with
           | .idle => ⟨[], [], (List.range s.profile.slots).drop 1, .busy (.probe 0)⟩
           | .busy w | .draining w => ⟨[], [], List.range s.profile.slots, .draining w⟩) ∧
        (∀ x, x ≠ r → t.rack x = s.rack x) ∧
        (∃ records, Answered s t (deskOf r) tag 0x35 ⟨.ok, []⟩ records (toDesk r notices)) ∧
        (∃ u, FailsEach r (s.rack r).queue s u ∧ t.receivers = u.receivers ∧ t.accounts = u.accounts ∧
          t.languages = u.languages ∧ Answered u t (deskOf r) tag 0x35 ⟨.ok, []⟩ [] toNone) ∧
        ((s.rack r).queue = [] → notices = [] ∧ t.receivers = s.receivers ∧ t.accounts = s.accounts ∧
          t.languages = s.languages) ∧
        t = { s with
          receivers := t.receivers, accounts := t.accounts, languages := t.languages, rackA := t.rackA,
          rackB := t.rackB, opsPort := t.opsPort, deskAPort := t.deskAPort, deskBPort := t.deskBPort, feed := t.feed })) ∧
  (∀ (s : State) (r : Rack) (w : Transaction) (ident : Ident) (event : Instr),
    s.run = .hall → s.rackFitted r = true → (s.rack r).bus = .draining w →
    event = doneOf r ident w ∨ event = noAnswerOf r w ∨ event = lineFaultOf r w →
    ∃ t, exec event s = .next t ∧
      (t.rack r).slots = (s.rack r).slots ∧ (t.rack r).queue = (s.rack r).queue ∧ Chosen t r (s.rack r).due ∧
      (∀ x, x ≠ r → t.rack x = s.rack x) ∧
      t = { s with rackA := t.rackA, rackB := t.rackB, feed := t.feed })

-- Chapters 6 and 8: the rack engines

/-- The slots of a rack that a scan round makes due (R112). -/
def dueSlots (s : State) (r : Rack) : List Nat :=
  (if s.rackFitted r then List.range s.profile.slots else []).filter fun n =>
    [SlotState.empty, .arriving, .occupied, .departing, .issuing, .held].contains (s.slot r n).state

/-- Slot `v` of number `n` after a probe of it was answered or missed (R113, R114). -/
def afterProbe (v : Slot) (answered : Bool) : Slot :=
  match v.state with
  | .empty => { v with state := if answered then .arriving else .empty }
  | .arriving => { v with state := if answered then .identifying else .empty }
  | .occupied => { v with state := if answered then .occupied else .departing }
  | .departing =>
    if answered then { v with state := if v.ident = none then .identifying else .occupied }
    else ⟨.empty, none, none, none, false, false⟩
  | .issuing | .held => { v with miss := !answered }
  | .identifying | .returning | .faulted => v

/-- SCAN_ROUND (R112): the fitted slots in a probed state are due, and an idle engine chooses its next transaction, the PROBE
of the lowest with no other work. PROBE_OUTCOME (R113, R114): the slot changes by its state, the confirmed departure of a
unit with no work in hand is told with SLOT_LEFT and touches no record; a missed probe of an ISSUING or HELD slot whose miss
mark is set confirms its departure, its issue failing with cause REMOVED or its return being abandoned, before SLOT_LEFT.
After the outcome the engine chooses its next transaction (R110), so that an arrival's IDENT is started. That a slot which
leaves the probed states is due no more (`dueAfter`) is the model's inference (log entry 20). -/
def Obligations.ScanTracksPresence : Prop :=
  (∀ (s : State) (r : Rack), s.run = .hall →
    ∃ t, exec (.scanRound r) s = .next t ∧
      ((s.rack r).bus ≠ .idle ∨ s.rackFitted r = false → t.rack r = { s.rack r with due := dueSlots s r }) ∧
      ((s.rack r).bus = .idle → s.rackFitted r = true → (s.rack r).queue = [] →
        (∀ n, n ≤ 31 → (s.slot r n).state ≠ .identifying ∧ (s.slot r n).state ≠ .returning) →
        t.rack r =
          (match dueSlots s r with
           | [] => { s.rack r with due := [] }
           | n :: rest => { s.rack r with due := rest, bus := .busy (.probe n) })) ∧
      ((s.rack r).bus = .idle → s.rackFitted r = true → Chosen t r (dueSlots s r)) ∧
      (t.rack r).slots = (s.rack r).slots ∧ (t.rack r).queue = (s.rack r).queue ∧
      (∀ x, x ≠ r → t.rack x = s.rack x) ∧
      t = { s with rackA := t.rackA, rackB := t.rackB, feed := t.feed }) ∧
  (∀ (s : State) (r : Rack) (n : Nat) (answered : Bool),
    s.InFlight r (.probe n) →
    let v := s.slot r n
    (v.state = .issuing ∨ v.state = .held → answered = true ∨ v.miss = false) →
    ∃ t, exec (.probeOutcome r n (if answered then .done else .noAnswer)) s = .next t ∧
      t.slot r n = { afterProbe v answered with retry := false } ∧ (∀ m, m ≠ n → t.slot r m = s.slot r m) ∧
      (t.rack r).queue = (s.rack r).queue ∧ (∀ x, x ≠ r → t.rack x = s.rack x) ∧
      Told s t []
        (toDesk r
          (if v.state = .departing ∧ answered = false then [.slotLeft n (v.ident.map (·.serial))] else [])) ∧
      (s.rackFitted r = true → Chosen t r (dueAfter s r n [v.state, (afterProbe v answered).state])) ∧
      t = { s with
        rackA := t.rackA, rackB := t.rackB, opsPort := t.opsPort, deskAPort := t.deskAPort,
        deskBPort := t.deskBPort, feed := t.feed }) ∧
  (∀ (s : State) (r : Rack) (n i l : Nat) (ident : Ident) (w : Receiver) (ref : AccountRef),
    s.InFlight r (.probe n) →
    let v := s.slot r n
    v.miss = true → v.ident = some ident → s.bySerial ident.serial = some (i, w) →
    let left (t : State) : Prop :=
      exec (.probeOutcome r n .noAnswer) s = .next t ∧
        t.slot r n = ⟨.empty, none, none, none, false, false⟩ ∧ (∀ m, m ≠ n → t.slot r m = s.slot r m) ∧
        (∀ x, x ≠ r → t.rack x = s.rack x) ∧
        (s.rackFitted r = true → Chosen t r (s.rack r).due) ∧
        t = { s with
          receivers := t.receivers, accounts := t.accounts, languages := t.languages, rackA := t.rackA,
          rackB := t.rackB, opsPort := t.opsPort, deskAPort := t.deskAPort, deskBPort := t.deskBPort, feed := t.feed }
    (∀ rack issued, v.state = .held → w.state = .issued ref l rack issued →
      ∃ t, left t ∧ (t.rack r).queue = (s.rack r).queue ∧ t.receivers = s.receivers ∧ t.accounts = s.accounts ∧
        t.languages = s.languages ∧
        Told s t [] (toDesk r [.returnAbandoned n w.serial ref .removed, .slotLeft n (some ident.serial)])) ∧
    (∀ o, v.state = .issuing → v.issue = some ⟨ref, l⟩ → s.account ref.index = ⟨ref.generation, some o⟩ →
      let after : Account :=
        ⟨ref.generation, some { o with entries := o.entries.filter fun e => e.receiver ≠ i }⟩
      ∃ t, left t ∧ (t.rack r).queue = (s.rack r).queue.filter (fun q => q.slot ≠ n) ∧
        t.receiver i = some { w with state := .stock } ∧ (∀ j, j ≠ i → t.receiver j = s.receiver j) ∧
        t.account ref.index = after ∧ (∀ j, j ≠ ref.index → t.account j = s.account j) ∧
        t.language l = { s.language l with listeners := (s.language l).listeners - 1 } ∧
        (∀ k, k ≠ l → t.language k = s.language k) ∧
        Told s t (accountRecords s ref.index after ++ listenerRecords s l)
          (toDesk r [.issueFailed n w.serial ref l .removed, .slotLeft n (some ident.serial)])))

/-- What the ident of a unit in slot `v` of number `n` makes of the slot, with its notices (R116). -/
def identAction (s : State) (n : Nat) (v : Slot) (ident : Ident) : Slot × List Notice :=
  let foreign : Slot × List Notice :=
    ({ v with state := .occupied, ident := some ident }, [.foreignUnit n ident.serial ident.battery])
  match s.bySerial ident.serial with
  | none => foreign
  | some (i, w) =>
    match w.state with
    | .stock | .service =>
      if ident.mark = .stock then
        ({ v with state := .occupied, ident := some ident },
          [.slotArrived n ident.serial i w.state ident.battery])
      else ({ v with ident := some ident }, [])
    | .issued _ _ _ _ =>
      if s.returnInHand ident.serial then foreign
      else ({ v with state := .returning, ident := some ident, returned := some ⟨s.minute, s.day⟩ }, [])
    | .lost _ _ => ({ v with ident := some ident }, [])
    | .pending _ _ _ => foreign

/-- IDENT_OUTCOME DONE (R116): the battery percent is written into the unit's record, and the slot goes on by the record's
state. REPAIR_MARK_OUTCOME DONE (R117): a LOST record becomes STOCK with UNIT_FOUND to the desk and the operations port; a
unit whose record is STOCK, in SERVICE or PENDING, or that has none, has its ident's hire mark made stock and the desk is
told of it. The engine then chooses its next transaction (R110), so that the MARK stock of a repair or of a return is
started. The model's choices are that a unit whose record is then found ISSUED is handled as R116 handles one (log entry
27), that a LOST unit's ident keeps its hire mark (log entry 21), that a serial of 0 or 16,777,215 is foreign because no
record holds it (log entry 38), and that a slot which leaves the probed states is due no more (`dueAfter`, log entry 20). -/
def Obligations.UnitsAreIdentified : Prop :=
  (∀ (s : State) (r : Rack) (n : Nat) (ident : Ident),
    s.InFlight r (.ident n) →
    let action := identAction s n (s.slot r n) ident
    ∃ t, exec (.identOutcome r n (.done ident)) s = .next t ∧
      t.slot r n = { action.1 with retry := false } ∧ (∀ m, m ≠ n → t.slot r m = s.slot r m) ∧
      (∀ i, t.receiver i =
        match s.bySerial ident.serial with
        | some (j, w) => if i = j then some { w with battery := ident.battery } else s.receiver i
        | none => s.receiver i) ∧
      (t.rack r).queue = (s.rack r).queue ∧ (∀ x, x ≠ r → t.rack x = s.rack x) ∧
      (s.rackFitted r = true → Chosen t r (dueAfter s r n [(s.slot r n).state, action.1.state])) ∧
      Told s t [] (toDesk r action.2) ∧
      t = { s with
        receivers := t.receivers, rackA := t.rackA, rackB := t.rackB, opsPort := t.opsPort,
        deskAPort := t.deskAPort, deskBPort := t.deskBPort, feed := t.feed }) ∧
  (∀ (s : State) (r : Rack) (n : Nat) (ident : Ident),
    s.InFlight r (.markRepair n) → (s.slot r n).ident = some ident →
    let docked (mark : HireMark) : Slot :=
      { s.slot r n with state := .occupied, ident := some { ident with mark := mark }, retry := false }
    let repaired (v : Slot) (notices : Port → List Notice) (pool : Nat → Option Receiver) : Prop :=
      ∃ t, exec (.repairMarkOutcome r n .done) s = .next t ∧
        t.slot r n = v ∧ (∀ m, m ≠ n → t.slot r m = s.slot r m) ∧ (∀ i, t.receiver i = pool i) ∧
        (t.rack r).queue = (s.rack r).queue ∧ (∀ x, x ≠ r → t.rack x = s.rack x) ∧
        (s.rackFitted r = true → Chosen t r (dueAfter s r n [(s.slot r n).state, v.state])) ∧
        Told s t [] notices ∧
        t = { s with
          receivers := t.receivers, rackA := t.rackA, rackB := t.rackB, opsPort := t.opsPort,
          deskAPort := t.deskAPort, deskBPort := t.deskBPort, feed := t.feed }
    (s.bySerial ident.serial = none →
      repaired (docked .stock) (toDesk r [.foreignUnit n ident.serial ident.battery]) s.receiver) ∧
    (∀ i w, s.bySerial ident.serial = some (i, w) →
      (∀ ref rack, w.state = .lost ref rack →
        let found : Notice := .unitFound r n w.serial i ref
        repaired (docked ident.mark) (fun p => toDesk r [found] p ++ toOps [found] p)
          (fun j => if j = i then some { w with state := .stock } else s.receiver j)) ∧
      (w.state = .stock ∨ w.state = .service →
        repaired (docked .stock) (toDesk r [.slotArrived n ident.serial i w.state ident.battery]) s.receiver) ∧
      (∀ ref l rack, w.state = .pending ref l rack →
        repaired (docked .stock) (toDesk r [.foreignUnit n ident.serial ident.battery]) s.receiver) ∧
      (∀ ref l rack issued, w.state = .issued ref l rack issued →
        if s.returnInHand ident.serial then
          repaired (docked .stock) (toDesk r [.foreignUnit n ident.serial ident.battery]) s.receiver
        else
          repaired { docked .stock with state := .returning, returned := some ⟨s.minute, s.day⟩ } toNone s.receiver)))

/-- PRESET_OUTCOME and MARK_HIRED_OUTCOME DONE (R120, R121): the head issue's PRESET is done with the channel it wrote; at
its MARK hired the receiver is ISSUED at this minute with its issue counted, the account's entry is HELD, the slot is
OCCUPIED, the queue moves on and ISSUE_DONE is sent. The engine then chooses its next transaction (R110, R120): the MARK
hired of the head once its PRESET is done, or the PRESET of the next issue with the channel its language has then, 0 if it
has none. That a slot outside the probed states is due no more (`dueAfter`) is the model's inference (log entry 20). -/
def Obligations.IssueStepsComplete : Prop :=
  (∀ (s : State) (r : Rack) (n channel : Nat) (code : List Byte) (q : QueuedIssue) (rest : List QueuedIssue),
    s.InFlight r (.preset n channel code) → (s.rack r).queue = q :: rest →
    ∃ t, exec (.presetOutcome r .done) s = .next t ∧
      (t.rack r).queue = { q with preset := some channel } :: rest ∧
      t.slot r n = { s.slot r n with retry := false } ∧ (∀ m, m ≠ n → t.slot r m = s.slot r m) ∧
      (∀ x, x ≠ r → t.rack x = s.rack x) ∧
      (s.rackFitted r = true → Chosen t r (dueAfter s r n [(s.slot r n).state])) ∧
      t = { s with rackA := t.rackA, rackB := t.rackB, feed := t.feed }) ∧
  (∀ (s : State) (r : Rack) (n i : Nat) (q : QueuedIssue) (rest : List QueuedIssue) (ident : Ident) (w : Receiver)
      (o : OpenAccount),
    s.InFlight r (.markHired n) → (s.rack r).queue = q :: rest → q.slot = n →
    (s.slot r n).ident = some ident → s.bySerial ident.serial = some (i, w) →
    s.account q.account.index = ⟨q.account.generation, some o⟩ →
    let after : Account :=
      ⟨q.account.generation,
       some { o with entries := o.entries.map fun e => if e.receiver = i then ⟨i, true⟩ else e }⟩
    ∃ t, exec (.markHiredOutcome r .done) s = .next t ∧
      t.receiver i =
        some { w with
          state := .issued q.account q.language r ⟨s.minute, s.day⟩
          issues := min 65535 (w.issues + 1) } ∧
      (∀ j, j ≠ i → t.receiver j = s.receiver j) ∧
      t.account q.account.index = after ∧ (∀ j, j ≠ q.account.index → t.account j = s.account j) ∧
      t.slot r n =
        { s.slot r n with
          state := .occupied, issue := none, miss := false, retry := false
          ident := some { ident with mark := .hired } } ∧
      (∀ m, m ≠ n → t.slot r m = s.slot r m) ∧
      (t.rack r).queue = rest ∧ (∀ x, x ≠ r → t.rack x = s.rack x) ∧
      (s.rackFitted r = true → Chosen t r (dueAfter s r n [(s.slot r n).state])) ∧
      Told s t (accountRecords s q.account.index after)
        (toDesk r [.issueDone n w.serial q.account q.language (q.preset.getD 0)]) ∧
      t = { s with
        receivers := t.receivers, accounts := t.accounts, rackA := t.rackA, rackB := t.rackB,
        opsPort := t.opsPort, deskAPort := t.deskAPort, deskBPort := t.deskBPort, feed := t.feed })

/-- RETURN_MARK_OUTCOME DONE (R150 to R153, R155, R157): a return that does not take the account's only entry commits; one
that does commits and settles the account while its rack's buffer is EMPTY, and is HELD while it is FULL. The engine then
chooses its next transaction (R110). That a slot outside the probed states is due no more (`dueAfter`) is the model's
inference (log entry 20). -/
def Obligations.ReturnIsDecided : Prop :=
  ∀ (s : State) (r rack : Rack) (n i l : Nat) (ident : Ident) (time issued : Stamp) (w : Receiver) (ref : AccountRef)
      (o : OpenAccount),
    s.InFlight r (.markReturn n) → (s.slot r n).ident = some ident → (s.slot r n).returned = some time →
    s.bySerial ident.serial = some (i, w) → w.state = .issued ref l rack issued →
    s.account ref.index = ⟨ref.generation, some o⟩ →
    let v := s.slot r n
    let exact := chargeBeforeCeiling o.snapshot issued.minute issued.day time.minute time.day
    let amount := min 4294967295 exact
    let after := chargedFor o amount (decide (4294967295 < exact)) i
    let done (closed : Bool) : Notice := .returnDone n w.serial ref amount closed
    let docks (t : State) (slot : Slot) : Prop :=
      t.slot r n = slot ∧ (∀ m, m ≠ n → t.slot r m = s.slot r m) ∧
      (t.rack r).queue = (s.rack r).queue ∧ (∀ x, x ≠ r → t.rack x = s.rack x) ∧
      (s.rackFitted r = true → Chosen t r (dueAfter s r n [v.state])) ∧
      t = { s with
        receivers := t.receivers, accounts := t.accounts, languages := t.languages, bufferA := t.bufferA,
        bufferB := t.bufferB, reports := t.reports, rackA := t.rackA, rackB := t.rackB, opsPort := t.opsPort,
        deskAPort := t.deskAPort, deskBPort := t.deskBPort, feed := t.feed }
    let commits (t : State) : Prop :=
      docks t
        { v with
          state := .occupied, ident := some { ident with mark := .stock }, returned := none, miss := false
          retry := false } ∧
      t.receiver i =
        some { w with
          state :=
            if s.profile.serviceInterval ≠ 0 ∧ s.profile.serviceInterval ≤ w.issues then .service else .stock } ∧
      (∀ j, j ≠ i → t.receiver j = s.receiver j) ∧
      t.language l = { s.language l with listeners := (s.language l).listeners - 1 } ∧
      (∀ k, k ≠ l → t.language k = s.language k)
    let records := accountRecords s ref.index ⟨ref.generation, some after⟩ ++ listenerRecords s l
    (o.entries.map (·.receiver) ≠ [i] →
      ∃ t, exec (.returnMarkOutcome r n .done) s = .next t ∧ commits t ∧
        t.account ref.index = ⟨ref.generation, some after⟩ ∧ (∀ j, j ≠ ref.index → t.account j = s.account j) ∧
        (∀ x, t.buffer x = s.buffer x) ∧ t.reports = s.reports ∧
        Told s t records (toDesk r [done false])) ∧
    (o.entries.map (·.receiver) = [i] → s.buffer r = none →
      ∃ t, exec (.returnMarkOutcome r n .done) s = .next t ∧ commits t ∧
        Settled s t ref r (settled s ref after r) ∧
        Told s t (records ++ [.account ref.index])
          (toDesk r
            [done true, .settlementReady ref (settled s ref after r).due (settled s ref after r).refund])) ∧
    (o.entries.map (·.receiver) = [i] → s.buffer r ≠ none →
      ∃ t, exec (.returnMarkOutcome r n .done) s = .next t ∧
        docks t { v with state := .held, ident := some { ident with mark := .stock }, miss := false, retry := false } ∧
        t.receivers = s.receivers ∧ t.accounts = s.accounts ∧ t.languages = s.languages ∧
        (∀ x, t.buffer x = s.buffer x) ∧ t.reports = s.reports ∧
        Told s t [] (toDesk r [.returnHeld n w.serial ref]))

/-- The failure of a transaction: its second LINE_FAULT, or a NO_ANSWER that ends an IDENT, PRESET or MARK; with the state
the slot is left in, the cause, and the notice of the fault (R109, R115). -/
abbrev FailsBy (s : State) (r : Rack) (k : Transaction) (event : Instr) (state : SlotState) (cause : Cause)
    (first : List Notice) : Prop :=
  (event = lineFaultOf r k ∧ (s.slot r k.slot).retry = true ∧ state = .faulted ∧ cause = .lineFault ∧
    first = [.slotFaulted k.slot k.kind]) ∨
  (event = noAnswerOf r k ∧ k.kind ≠ .probe ∧ state = .departing ∧ cause = .removed ∧ first = [])

/-- A transaction that ends badly (R109, R115, R122, R154): a first LINE_FAULT sets the retry mark and the transaction goes
on; a second one, or a NO_ANSWER, leaves the slot FAULTED or DEPARTING with every field cleared, an issue on it fails and a
return on it is abandoned, with its notice, and the engine chooses its next transaction (R110). That a slot which leaves the
probed states is due no more (`dueAfter`) is the model's inference (log entry 20). -/
def Obligations.DockWorkFails : Prop :=
  ∀ (s : State) (r : Rack) (k : Transaction),
    s.InFlight r k →
    let n := k.slot
    let v := s.slot r n
    (v.retry = false →
      ∃ t, exec (lineFaultOf r k) s = .next t ∧
        t.slot r n = { v with retry := true } ∧ (∀ m, m ≠ n → t.slot r m = s.slot r m) ∧
        (t.rack r).bus = .busy k ∧ (t.rack r).due = dueAfter s r n [v.state] ∧
        (t.rack r).queue = (s.rack r).queue ∧ (∀ x, x ≠ r → t.rack x = s.rack x) ∧
        t = { s with rackA := t.rackA, rackB := t.rackB, feed := t.feed }) ∧
    (∀ event state cause first, FailsBy s r k event state cause first →
      let left (t : State) (queue : List QueuedIssue) : Prop :=
        exec event s = .next t ∧
          t.slot r n = ⟨state, none, none, none, false, false⟩ ∧ (∀ m, m ≠ n → t.slot r m = s.slot r m) ∧
          (t.rack r).queue = queue ∧ (∀ x, x ≠ r → t.rack x = s.rack x) ∧
          (s.rackFitted r = true → Chosen t r (dueAfter s r n [v.state, state])) ∧
          t = { s with
            receivers := t.receivers, accounts := t.accounts, languages := t.languages, rackA := t.rackA,
            rackB := t.rackB, opsPort := t.opsPort, deskAPort := t.deskAPort, deskBPort := t.deskBPort,
            feed := t.feed }
      (v.state ≠ .issuing → v.state ≠ .returning → v.state ≠ .held →
        ∃ t, left t (s.rack r).queue ∧ t.receivers = s.receivers ∧ t.accounts = s.accounts ∧
          t.languages = s.languages ∧ Told s t [] (toDesk r first)) ∧
      (∀ ident i w ref l rack issued, v.state = .returning ∨ v.state = .held → v.ident = some ident →
        s.bySerial ident.serial = some (i, w) → w.state = .issued ref l rack issued →
        ∃ t, left t (s.rack r).queue ∧ t.receivers = s.receivers ∧ t.accounts = s.accounts ∧
          t.languages = s.languages ∧
          Told s t [] (toDesk r (first ++ [.returnAbandoned n w.serial ref cause]))) ∧
      (∀ ident i w ref l o, v.state = .issuing → v.ident = some ident → v.issue = some ⟨ref, l⟩ →
        s.bySerial ident.serial = some (i, w) → s.account ref.index = ⟨ref.generation, some o⟩ →
        let after : Account :=
          ⟨ref.generation, some { o with entries := o.entries.filter fun e => e.receiver ≠ i }⟩
        ∃ t, left t ((s.rack r).queue.filter fun q => q.slot ≠ n) ∧
          t.receiver i = some { w with state := .stock } ∧ (∀ j, j ≠ i → t.receiver j = s.receiver j) ∧
          t.account ref.index = after ∧
          (∀ j, j ≠ ref.index → t.account j = s.account j) ∧
          t.language l = { s.language l with listeners := (s.language l).listeners - 1 } ∧
          (∀ x, x ≠ l → t.language x = s.language x) ∧
          Told s t (accountRecords s ref.index after ++ listenerRecords s l) (toDesk r (first ++ [.issueFailed n w.serial ref l cause]))))

-- Chapter 11: the profile, the starts and the supplies

/-- PROFILE_READ and PROFILE_WRITE (R203, R205): the stored fields (the defaults for a blank store), whether the store is
blank, and the profile in force are answered; in INSTALL the fields are stored with their check value, and the reply names
the fields that a start will clamp; a store that does not take the write is found at the read-back; in HALL the store is
left as it is. That the failing store comes as an operand, kept in the model's own field storeFailure, is the model's choice
(log entry 29), and so is that a store of another length than 15 bytes is blank (log entry 30). -/
def Obligations.ProfileCommandsAct : Prop :=
  ∀ (s : State) (tag : Byte),
    s.run ≠ .off → (s.port .ops).inHand = none →
    let frame (t : State) : Prop :=
      t = { s with
        store := t.store, storeFailure := t.storeFailure, opsPort := t.opsPort, deskAPort := t.deskAPort,
        deskBPort := t.deskBPort, feed := t.feed }
    let blank : Bool := decide (crc16 s.store.bytes ≠ s.store.check ∨ s.store.bytes.length ≠ 15)
    (∃ t, exec (.profileRead .ops tag []) s = .next t ∧ frame t ∧ t.store = s.store ∧
      Answered s t .ops tag 0x22
        ⟨.ok, (if blank then Profile.default.bytes else s.store.bytes) ++ [if blank then 0x01 else 0x00]
          ++ s.profile.bytes⟩ [] toNone) ∧
    (∀ (fields : List Byte) (values : List Nat) (failure : Option StoreImage),
      fields.length = 15 → profileFields fields = some values →
      let written : StoreImage := ⟨fields, crc16 fields⟩
      (s.run = .install → (∀ found, failure = some found → found = written) →
        ∃ t mask, exec (.profileWrite .ops tag fields failure) s = .next t ∧ frame t ∧ t.store = written ∧
          mask < 8192 ∧
          (∀ n v low high, values[n]? = some v → profileRanges[n]? = some (low, high) →
            mask.testBit n = decide (v < low ∨ high < v)) ∧
          Answered s t .ops tag 0x23 ⟨.ok, byte2 mask⟩ [] toNone) ∧
      (∀ found, s.run = .install → failure = some found → found ≠ written →
        ∃ t, exec (.profileWrite .ops tag fields failure) s = .next t ∧ frame t ∧ t.store = found ∧
          Answered s t .ops tag 0x23 ⟨.wrongState, [0x0F]⟩ [] toNone) ∧
      (s.run = .hall →
        ∃ t, exec (.profileWrite .ops tag fields failure) s = .next t ∧ frame t ∧ t.store = s.store ∧
          Answered s t .ops tag 0x23 ⟨.wrongState, []⟩ [] toNone))

/-- The working state of a hall start (R86, R102, R127, R186, R206): the ports as after a start with `notices` formed for
the operations port, the feed link sending the feed table, the booth link silent, every slot EMPTY, and the PROBE of slot 0
of each fitted rack in flight. -/
def StartsWorking (s t : State) (notices : List Notice) : Prop :=
  t.run = .hall ∧ t.marker = true ∧ t.suspect = true ∧ t.second = 0 ∧ t.line = none ∧
    (∀ p, t.port p = (PortState.start (s.port p).hold).told (toOps notices p)) ∧
    t.feed = ⟨t.feedTable, false, true⟩ ∧
    (∀ r, t.rack r =
      if t.rackFitted r then ⟨[], [], (List.range t.profile.slots).drop 1, .busy (.probe 0)⟩
      else ⟨[], [], [], .idle⟩) ∧
    t.profile = (profileInForce s.store).1 ∧ t.clamped = (profileInForce s.store).2

/-- A cold start (R206, with R5, R24, R25, R47, R127, R132, R144, R149, R170, R198), by POWER_UP with the strap open or
RESETN, while the retention marker is gone: every retained record takes its cold-start value. That POWER_UP is taken in every
run state (log entry 11), and that the PROBE of slot 0 is in flight when the start ends (log entry 22), are the model's
choices. -/
def Obligations.ColdStartClears : Prop :=
  ∀ (s : State) (event : Instr),
    s.marker = false → event = .powerUp false ∨ (event = .resetn ∧ s.run ≠ .off) →
    let profile := (profileInForce s.store).1
    ∃ t, exec event s = .next t ∧
      StartsWorking s t [] ∧ t.startKind = .cold ∧ t.minute = 0 ∧ t.day = 0 ∧
      (∀ l, t.language l = ⟨false, [], [], none, none, 0⟩) ∧
      (∀ c, 1 ≤ c → c ≤ 24 → t.channel c = ⟨.free, profile.floorFill, 0⟩) ∧
      (∀ b, 1 ≤ b → b ≤ 16 → t.booth b =
        ⟨⟨none, none, .announced, [], profile.turnLimit⟩, ⟨.absent, none, 0, 0, 1, 0⟩, none, .a, [], none, .floor, [],
          ⟨.floor, .floor, .floor, .floor⟩, ⟨0, 0, 0⟩⟩ ∧
        ∀ n, (t.booth b).seat n = ⟨.off, 0, false, 0⟩) ∧
      (∀ i, t.receiver i = none) ∧ (∀ i, t.account i = ⟨0, none⟩) ∧
      (∀ k, t.tariff k = ⟨0, 60, 0, 0, 0, 0, 1⟩) ∧ (∀ k, t.filter k = ⟨false, 0, 0, 0, 0, false, 0⟩) ∧
      (∀ r, t.buffer r = none) ∧ (∀ k, t.report k = ⟨0, 0, 0, 0⟩) ∧
      t.pending = s.pending ∧ t.store = s.store

/-- Channel `c` after a warm start with `fitted` channels fitted (R24). -/
def warmChannel (fitted c : Nat) (v : Channel) : Channel :=
  match v.state with
  | .free => v
  | .redirect _ _ => { v with state := .free }
  | .mapped l | .live l => { v with state := if fitted < c then .free else .mapped l }

/-- A warm start (R206, with R5, R24, R47, R86, R127, R149, R170, R202), by POWER_UP with the strap open or RESETN, while
the retention marker stands: the retained records are kept but for owners, redirects, PENDING issues and the channels above
those fitted, and CLOCK_SUSPECT is formed; each PENDING receiver gives up its language's listener. That CLOCK_SUSPECT goes
to the transmitter in the start itself (log entry 8), that POWER_UP is taken in every run state (log entry 11), and that the
PROBE of slot 0 is in flight when the start ends (log entry 22), are the model's choices. -/
def Obligations.WarmStartKeeps : Prop :=
  ∀ (s : State) (event : Instr),
    s.marker = true → event = .powerUp false ∨ (event = .resetn ∧ s.run ≠ .off) →
    let fitted := (profileInForce s.store).1.channels
    ∃ t, exec event s = .next t ∧
      StartsWorking s t [.clockSuspect ⟨s.minute, s.day⟩ .warm] ∧ t.startKind = .warm ∧
      (∀ l, l ≤ 31 →
        t.language l =
          { s.language l with
            owner := none, channel := (t.language l).channel, listeners := (t.language l).listeners }) ∧
      (∀ l, l ≤ 31 →
        (∀ c, 1 ≤ c → c ≤ 24 → fitted < c → (s.channel c).state.language ≠ some l) →
        (t.language l).channel = (s.language l).channel) ∧
      (∀ c l, 1 ≤ c → c ≤ 24 → fitted < c → (s.channel c).state.language = some l → (t.language l).channel = none) ∧
      ((∀ i v ref l r, s.receiver i = some v → v.state ≠ .pending ref l r) → s.TablesCanonical →
        ∀ l, (t.language l).listeners = (s.language l).listeners) ∧
      (∀ l, l ≤ 31 → (t.language l).listeners = (s.language l).listeners -
        s.receivers.countP fun e => e.2.any fun v =>
          match v.state with
          | .pending _ k _ => k = l
          | .stock | .issued _ _ _ _ | .lost _ _ | .service => false) ∧
      (∀ c, 1 ≤ c → c ≤ 24 → t.channel c = warmChannel fitted c (s.channel c)) ∧
      (∀ b, 1 ≤ b → b ≤ 16 →
        t.booth b =
          ⟨(s.booth b).config, ⟨.absent, none, 0, 0, 1, 0⟩, none, .a, (t.booth b).seats, none, .floor, [],
            ⟨.floor, .floor, .floor, .floor⟩, ⟨0, 0, 0⟩⟩ ∧
        ∀ n, 1 ≤ n → n ≤ 3 → (t.booth b).seat n = ⟨.off, 0, false, ((s.booth b).seat n).liveMinutes⟩) ∧
      (∀ i, t.receiver i =
        match s.receiver i with
        | some v => some (match v.state with
            | .pending _ _ _ => { v with state := .stock }
            | _ => v)
        | none => none) ∧
      (∀ i, t.account i =
        { s.account i with
          account := (s.account i).account.map fun o => { o with entries := o.entries.filter fun e => e.held } }) ∧
      t.tariffs = s.tariffs ∧ t.filters = s.filters ∧ (∀ r, t.buffer r = s.buffer r) ∧ t.reports = s.reports ∧
      t.minute = s.minute ∧ t.day = s.day ∧ t.pending = s.pending ∧ t.store = s.store

/-- POWER_UP with the strap tied, POWER_DOWN and RETAINED_MEMORY_LOSS (R204, R206): INSTALL and the unpowered part have
every line silent and keep every record; a loss of the retained memory takes the retention marker and the retained records
and leaves the rest. What the lost records then read as is a free value (log entry 4), of which nothing is said. The model's
choices besides are that working state stays as it is through POWER_DOWN and INSTALL (log entry 12), that POWER_UP is taken
in every run state (log entry 11), and that the loss of the retained memory is, too (log entry 31). -/
def Obligations.PowerEventsAct : Prop :=
  ∀ (s : State),
    let silent (t : State) : Prop :=
      (∀ p, t.port p = PortState.start (s.port p).hold) ∧
      (∀ r, t.rack r = { s.rack r with bus := .idle }) ∧ t.feed = { s.feed with sending := false } ∧ t.line = none
    (∃ t, exec (.powerUp true) s = .next t ∧ t.run = .install ∧ silent t ∧
      t.profile = (profileInForce s.store).1 ∧ t.clamped = (profileInForce s.store).2 ∧
      t = { s with
        run := t.run, profile := t.profile, clamped := t.clamped, opsPort := t.opsPort, deskAPort := t.deskAPort,
        deskBPort := t.deskBPort, rackA := t.rackA, rackB := t.rackB, feed := t.feed, line := t.line }) ∧
    (∃ t, exec .powerDown s = .next t ∧ t.run = .off ∧ silent t ∧
      t = { s with
        run := t.run, opsPort := t.opsPort, deskAPort := t.deskAPort, deskBPort := t.deskBPort, rackA := t.rackA,
        rackB := t.rackB, feed := t.feed, line := t.line }) ∧
    (∃ t, exec .retainedMemoryLoss s = .next t ∧ t.marker = false ∧
      (∀ b, ∃ config seats, t.booth b = { s.booth b with config := config, seats := seats }) ∧
      (∀ b n, ((t.booth b).seat n).state = ((s.booth b).seat n).state ∧
        ((t.booth b).seat n).turn = ((s.booth b).seat n).turn ∧
        ((t.booth b).seat n).overdue = ((s.booth b).seat n).overdue) ∧
      t = { s with
        marker := t.marker, languages := t.languages, channels := t.channels, booths := t.booths,
        receivers := t.receivers, accounts := t.accounts, tariffs := t.tariffs, filters := t.filters,
        bufferA := t.bufferA, bufferB := t.bufferB, reports := t.reports, minute := t.minute, day := t.day,
        suspect := t.suspect, freeCount := t.freeCount, feed := t.feed })

-- The whole machine

/-- Every step of the 2416 keeps its bounds: a port holds at most 16 notices and 256 received bytes (R175, R183), an issue
queue at most 4 issues (R119), the clock stays in its ranges (R198), the tables in their canonical form (the model's choice,
log entry 34), the feed link never rests behind the tables (R22), the profile in force lies in its ranges (R203), and no
booth stands in its own taker set (section 4.1, R66). -/
def Obligations.StepKeepsBounds : Prop :=
  ∀ (s t : State), s.Bounded → step s = .next t → t.Bounded

/-- Every step of the 2416 keeps the language table and the channel map in agreement (R11): whatever is commanded, a
language's channel names the language, LIVE or MAPPED by the language's owner. -/
def Obligations.StepKeepsLanguagesInAgreement : Prop :=
  ∀ (s t : State), s.LanguagesAgree → step s = .next t → t.LanguagesAgree

/-- The machine after reset meets the invariants, and is a machine after a cold start: the clock is suspect and reads 0,
every account is FREE and every tariff class holds its cold-start values. The blank profile store is the model's choice
(log entry 2). -/
def Obligations.ResetMeetsInvariants : Prop :=
  State.reset.Bounded ∧ State.reset.LanguagesAgree ∧
    State.reset.run = .hall ∧ State.reset.startKind = .cold ∧ State.reset.suspect = true ∧
    State.reset.minute = 0 ∧ State.reset.day = 0 ∧ State.reset.profile = Profile.default ∧
    (∀ i, State.reset.account i = ⟨0, none⟩) ∧ (∀ k, State.reset.tariff k = ⟨0, 60, 0, 0, 0, 0, 1⟩)

end
end

