-- ==== Sys2Proof/Laws/State.lean ====
section
/-!
SUPPORT. One lemma per field per update: what each write of a record, a port, a rack or a buffer leaves as it was.
-/
namespace Sys2Proof.Machine

variable (s : State)

-- The thin operations are read as the writes they are.

@[simp] theorem notifyOps_eq (n : Notice) : s.notifyOps n = s.notify .ops n := rfl

@[simp] theorem notifyRack_eq (r : Rack) (n : Notice) : s.notifyRack r n = s.notify (deskOf r) n := rfl

-- setPort

@[simp] theorem setPort_pending (p : Port) (q : PortState) : (s.setPort p q).pending = s.pending := by cases p <;> rfl
@[simp] theorem setPort_run (p : Port) (q : PortState) : (s.setPort p q).run = s.run := by cases p <;> rfl
@[simp] theorem setPort_startKind (p : Port) (q : PortState) : (s.setPort p q).startKind = s.startKind := by cases p <;> rfl
@[simp] theorem setPort_marker (p : Port) (q : PortState) : (s.setPort p q).marker = s.marker := by cases p <;> rfl
@[simp] theorem setPort_languages (p : Port) (q : PortState) : (s.setPort p q).languages = s.languages := by cases p <;> rfl
@[simp] theorem setPort_channels (p : Port) (q : PortState) : (s.setPort p q).channels = s.channels := by cases p <;> rfl
@[simp] theorem setPort_booths (p : Port) (q : PortState) : (s.setPort p q).booths = s.booths := by cases p <;> rfl
@[simp] theorem setPort_receivers (p : Port) (q : PortState) : (s.setPort p q).receivers = s.receivers := by cases p <;> rfl
@[simp] theorem setPort_accounts (p : Port) (q : PortState) : (s.setPort p q).accounts = s.accounts := by cases p <;> rfl
@[simp] theorem setPort_tariffs (p : Port) (q : PortState) : (s.setPort p q).tariffs = s.tariffs := by cases p <;> rfl
@[simp] theorem setPort_filters (p : Port) (q : PortState) : (s.setPort p q).filters = s.filters := by cases p <;> rfl
@[simp] theorem setPort_bufferA (p : Port) (q : PortState) : (s.setPort p q).bufferA = s.bufferA := by cases p <;> rfl
@[simp] theorem setPort_bufferB (p : Port) (q : PortState) : (s.setPort p q).bufferB = s.bufferB := by cases p <;> rfl
@[simp] theorem setPort_reports (p : Port) (q : PortState) : (s.setPort p q).reports = s.reports := by cases p <;> rfl
@[simp] theorem setPort_minute (p : Port) (q : PortState) : (s.setPort p q).minute = s.minute := by cases p <;> rfl
@[simp] theorem setPort_day (p : Port) (q : PortState) : (s.setPort p q).day = s.day := by cases p <;> rfl
@[simp] theorem setPort_suspect (p : Port) (q : PortState) : (s.setPort p q).suspect = s.suspect := by cases p <;> rfl
@[simp] theorem setPort_second (p : Port) (q : PortState) : (s.setPort p q).second = s.second := by cases p <;> rfl
@[simp] theorem setPort_rackA (p : Port) (q : PortState) : (s.setPort p q).rackA = s.rackA := by cases p <;> rfl
@[simp] theorem setPort_rackB (p : Port) (q : PortState) : (s.setPort p q).rackB = s.rackB := by cases p <;> rfl
@[simp] theorem setPort_feed (p : Port) (q : PortState) : (s.setPort p q).feed = s.feed := by cases p <;> rfl
@[simp] theorem setPort_line (p : Port) (q : PortState) : (s.setPort p q).line = s.line := by cases p <;> rfl
@[simp] theorem setPort_profile (p : Port) (q : PortState) : (s.setPort p q).profile = s.profile := by cases p <;> rfl
@[simp] theorem setPort_clamped (p : Port) (q : PortState) : (s.setPort p q).clamped = s.clamped := by cases p <;> rfl
@[simp] theorem setPort_store (p : Port) (q : PortState) : (s.setPort p q).store = s.store := by cases p <;> rfl
@[simp] theorem setPort_storeFailure (p : Port) (q : PortState) : (s.setPort p q).storeFailure = s.storeFailure := by cases p <;> rfl
@[simp] theorem setPort_freeCount (p : Port) (q : PortState) : (s.setPort p q).freeCount = s.freeCount := by cases p <;> rfl
@[simp] theorem setPort_language (p : Port) (q : PortState) (j : Nat) : (s.setPort p q).language j = s.language j := by cases p <;> rfl
@[simp] theorem setPort_channel (p : Port) (q : PortState) (j : Nat) : (s.setPort p q).channel j = s.channel j := by cases p <;> rfl
@[simp] theorem setPort_booth (p : Port) (q : PortState) (j : Nat) : (s.setPort p q).booth j = s.booth j := by cases p <;> rfl
@[simp] theorem setPort_receiver (p : Port) (q : PortState) (j : Nat) : (s.setPort p q).receiver j = s.receiver j := by cases p <;> rfl
@[simp] theorem setPort_account (p : Port) (q : PortState) (j : Nat) : (s.setPort p q).account j = s.account j := by cases p <;> rfl
@[simp] theorem setPort_tariff (p : Port) (q : PortState) (j : Nat) : (s.setPort p q).tariff j = s.tariff j := by cases p <;> rfl
@[simp] theorem setPort_filter (p : Port) (q : PortState) (j : Nat) : (s.setPort p q).filter j = s.filter j := by cases p <;> rfl
@[simp] theorem setPort_report (p : Port) (q : PortState) (j : Nat) : (s.setPort p q).report j = s.report j := by cases p <;> rfl
@[simp] theorem setPort_rack (p : Port) (q : PortState) (x : Rack) : (s.setPort p q).rack x = s.rack x := by cases p <;> rfl
@[simp] theorem setPort_buffer (p : Port) (q : PortState) (x : Rack) : (s.setPort p q).buffer x = s.buffer x := by cases p <;> rfl
@[simp] theorem setPort_now (p : Port) (q : PortState) : (s.setPort p q).now = s.now := by cases p <;> rfl
@[simp] theorem setPort_bySerial (p : Port) (q : PortState) (x : Nat) : (s.setPort p q).bySerial x = s.bySerial x := by cases p <;> rfl
@[simp] theorem setPort_openAccount (p : Port) (q : PortState) (x : AccountRef) : (s.setPort p q).openAccount x = s.openAccount x := by cases p <;> rfl
@[simp] theorem setPort_slot (p : Port) (q : PortState) (x : Rack) (k : Nat) : (s.setPort p q).slot x k = s.slot x k := by cases p <;> rfl
@[simp] theorem setPort_rackFitted (p : Port) (q : PortState) (x : Rack) : (s.setPort p q).rackFitted x = s.rackFitted x := by cases p <;> rfl
@[simp] theorem setPort_boothFitted (p : Port) (q : PortState) (x : Nat) : (s.setPort p q).boothFitted x = s.boothFitted x := by cases p <;> rfl

-- setRack

@[simp] theorem setRack_pending (r : Rack) (e : RackEngine) : (s.setRack r e).pending = s.pending := by cases r <;> rfl
@[simp] theorem setRack_run (r : Rack) (e : RackEngine) : (s.setRack r e).run = s.run := by cases r <;> rfl
@[simp] theorem setRack_startKind (r : Rack) (e : RackEngine) : (s.setRack r e).startKind = s.startKind := by cases r <;> rfl
@[simp] theorem setRack_marker (r : Rack) (e : RackEngine) : (s.setRack r e).marker = s.marker := by cases r <;> rfl
@[simp] theorem setRack_languages (r : Rack) (e : RackEngine) : (s.setRack r e).languages = s.languages := by cases r <;> rfl
@[simp] theorem setRack_channels (r : Rack) (e : RackEngine) : (s.setRack r e).channels = s.channels := by cases r <;> rfl
@[simp] theorem setRack_booths (r : Rack) (e : RackEngine) : (s.setRack r e).booths = s.booths := by cases r <;> rfl
@[simp] theorem setRack_receivers (r : Rack) (e : RackEngine) : (s.setRack r e).receivers = s.receivers := by cases r <;> rfl
@[simp] theorem setRack_accounts (r : Rack) (e : RackEngine) : (s.setRack r e).accounts = s.accounts := by cases r <;> rfl
@[simp] theorem setRack_tariffs (r : Rack) (e : RackEngine) : (s.setRack r e).tariffs = s.tariffs := by cases r <;> rfl
@[simp] theorem setRack_filters (r : Rack) (e : RackEngine) : (s.setRack r e).filters = s.filters := by cases r <;> rfl
@[simp] theorem setRack_bufferA (r : Rack) (e : RackEngine) : (s.setRack r e).bufferA = s.bufferA := by cases r <;> rfl
@[simp] theorem setRack_bufferB (r : Rack) (e : RackEngine) : (s.setRack r e).bufferB = s.bufferB := by cases r <;> rfl
@[simp] theorem setRack_reports (r : Rack) (e : RackEngine) : (s.setRack r e).reports = s.reports := by cases r <;> rfl
@[simp] theorem setRack_minute (r : Rack) (e : RackEngine) : (s.setRack r e).minute = s.minute := by cases r <;> rfl
@[simp] theorem setRack_day (r : Rack) (e : RackEngine) : (s.setRack r e).day = s.day := by cases r <;> rfl
@[simp] theorem setRack_suspect (r : Rack) (e : RackEngine) : (s.setRack r e).suspect = s.suspect := by cases r <;> rfl
@[simp] theorem setRack_second (r : Rack) (e : RackEngine) : (s.setRack r e).second = s.second := by cases r <;> rfl
@[simp] theorem setRack_opsPort (r : Rack) (e : RackEngine) : (s.setRack r e).opsPort = s.opsPort := by cases r <;> rfl
@[simp] theorem setRack_deskAPort (r : Rack) (e : RackEngine) : (s.setRack r e).deskAPort = s.deskAPort := by cases r <;> rfl
@[simp] theorem setRack_deskBPort (r : Rack) (e : RackEngine) : (s.setRack r e).deskBPort = s.deskBPort := by cases r <;> rfl
@[simp] theorem setRack_feed (r : Rack) (e : RackEngine) : (s.setRack r e).feed = s.feed := by cases r <;> rfl
@[simp] theorem setRack_line (r : Rack) (e : RackEngine) : (s.setRack r e).line = s.line := by cases r <;> rfl
@[simp] theorem setRack_profile (r : Rack) (e : RackEngine) : (s.setRack r e).profile = s.profile := by cases r <;> rfl
@[simp] theorem setRack_clamped (r : Rack) (e : RackEngine) : (s.setRack r e).clamped = s.clamped := by cases r <;> rfl
@[simp] theorem setRack_store (r : Rack) (e : RackEngine) : (s.setRack r e).store = s.store := by cases r <;> rfl
@[simp] theorem setRack_storeFailure (r : Rack) (e : RackEngine) : (s.setRack r e).storeFailure = s.storeFailure := by cases r <;> rfl
@[simp] theorem setRack_freeCount (r : Rack) (e : RackEngine) : (s.setRack r e).freeCount = s.freeCount := by cases r <;> rfl
@[simp] theorem setRack_language (r : Rack) (e : RackEngine) (j : Nat) : (s.setRack r e).language j = s.language j := by cases r <;> rfl
@[simp] theorem setRack_channel (r : Rack) (e : RackEngine) (j : Nat) : (s.setRack r e).channel j = s.channel j := by cases r <;> rfl
@[simp] theorem setRack_booth (r : Rack) (e : RackEngine) (j : Nat) : (s.setRack r e).booth j = s.booth j := by cases r <;> rfl
@[simp] theorem setRack_receiver (r : Rack) (e : RackEngine) (j : Nat) : (s.setRack r e).receiver j = s.receiver j := by cases r <;> rfl
@[simp] theorem setRack_account (r : Rack) (e : RackEngine) (j : Nat) : (s.setRack r e).account j = s.account j := by cases r <;> rfl
@[simp] theorem setRack_tariff (r : Rack) (e : RackEngine) (j : Nat) : (s.setRack r e).tariff j = s.tariff j := by cases r <;> rfl
@[simp] theorem setRack_filter (r : Rack) (e : RackEngine) (j : Nat) : (s.setRack r e).filter j = s.filter j := by cases r <;> rfl
@[simp] theorem setRack_report (r : Rack) (e : RackEngine) (j : Nat) : (s.setRack r e).report j = s.report j := by cases r <;> rfl
@[simp] theorem setRack_buffer (r : Rack) (e : RackEngine) (x : Rack) : (s.setRack r e).buffer x = s.buffer x := by cases r <;> rfl
@[simp] theorem setRack_port (r : Rack) (e : RackEngine) (x : Port) : (s.setRack r e).port x = s.port x := by cases r <;> rfl
@[simp] theorem setRack_now (r : Rack) (e : RackEngine) : (s.setRack r e).now = s.now := by cases r <;> rfl
@[simp] theorem setRack_bySerial (r : Rack) (e : RackEngine) (x : Nat) : (s.setRack r e).bySerial x = s.bySerial x := by cases r <;> rfl
@[simp] theorem setRack_openAccount (r : Rack) (e : RackEngine) (x : AccountRef) : (s.setRack r e).openAccount x = s.openAccount x := by cases r <;> rfl
@[simp] theorem setRack_rackFitted (r : Rack) (e : RackEngine) (x : Rack) : (s.setRack r e).rackFitted x = s.rackFitted x := by cases r <;> rfl
@[simp] theorem setRack_boothFitted (r : Rack) (e : RackEngine) (x : Nat) : (s.setRack r e).boothFitted x = s.boothFitted x := by cases r <;> rfl

-- setBuffer

@[simp] theorem setBuffer_pending (r : Rack) (v : Option Settlement) : (s.setBuffer r v).pending = s.pending := by cases r <;> rfl
@[simp] theorem setBuffer_run (r : Rack) (v : Option Settlement) : (s.setBuffer r v).run = s.run := by cases r <;> rfl
@[simp] theorem setBuffer_startKind (r : Rack) (v : Option Settlement) : (s.setBuffer r v).startKind = s.startKind := by cases r <;> rfl
@[simp] theorem setBuffer_marker (r : Rack) (v : Option Settlement) : (s.setBuffer r v).marker = s.marker := by cases r <;> rfl
@[simp] theorem setBuffer_languages (r : Rack) (v : Option Settlement) : (s.setBuffer r v).languages = s.languages := by cases r <;> rfl
@[simp] theorem setBuffer_channels (r : Rack) (v : Option Settlement) : (s.setBuffer r v).channels = s.channels := by cases r <;> rfl
@[simp] theorem setBuffer_booths (r : Rack) (v : Option Settlement) : (s.setBuffer r v).booths = s.booths := by cases r <;> rfl
@[simp] theorem setBuffer_receivers (r : Rack) (v : Option Settlement) : (s.setBuffer r v).receivers = s.receivers := by cases r <;> rfl
@[simp] theorem setBuffer_accounts (r : Rack) (v : Option Settlement) : (s.setBuffer r v).accounts = s.accounts := by cases r <;> rfl
@[simp] theorem setBuffer_tariffs (r : Rack) (v : Option Settlement) : (s.setBuffer r v).tariffs = s.tariffs := by cases r <;> rfl
@[simp] theorem setBuffer_filters (r : Rack) (v : Option Settlement) : (s.setBuffer r v).filters = s.filters := by cases r <;> rfl
@[simp] theorem setBuffer_reports (r : Rack) (v : Option Settlement) : (s.setBuffer r v).reports = s.reports := by cases r <;> rfl
@[simp] theorem setBuffer_minute (r : Rack) (v : Option Settlement) : (s.setBuffer r v).minute = s.minute := by cases r <;> rfl
@[simp] theorem setBuffer_day (r : Rack) (v : Option Settlement) : (s.setBuffer r v).day = s.day := by cases r <;> rfl
@[simp] theorem setBuffer_suspect (r : Rack) (v : Option Settlement) : (s.setBuffer r v).suspect = s.suspect := by cases r <;> rfl
@[simp] theorem setBuffer_second (r : Rack) (v : Option Settlement) : (s.setBuffer r v).second = s.second := by cases r <;> rfl
@[simp] theorem setBuffer_rackA (r : Rack) (v : Option Settlement) : (s.setBuffer r v).rackA = s.rackA := by cases r <;> rfl
@[simp] theorem setBuffer_rackB (r : Rack) (v : Option Settlement) : (s.setBuffer r v).rackB = s.rackB := by cases r <;> rfl
@[simp] theorem setBuffer_opsPort (r : Rack) (v : Option Settlement) : (s.setBuffer r v).opsPort = s.opsPort := by cases r <;> rfl
@[simp] theorem setBuffer_deskAPort (r : Rack) (v : Option Settlement) : (s.setBuffer r v).deskAPort = s.deskAPort := by cases r <;> rfl
@[simp] theorem setBuffer_deskBPort (r : Rack) (v : Option Settlement) : (s.setBuffer r v).deskBPort = s.deskBPort := by cases r <;> rfl
@[simp] theorem setBuffer_feed (r : Rack) (v : Option Settlement) : (s.setBuffer r v).feed = s.feed := by cases r <;> rfl
@[simp] theorem setBuffer_line (r : Rack) (v : Option Settlement) : (s.setBuffer r v).line = s.line := by cases r <;> rfl
@[simp] theorem setBuffer_profile (r : Rack) (v : Option Settlement) : (s.setBuffer r v).profile = s.profile := by cases r <;> rfl
@[simp] theorem setBuffer_clamped (r : Rack) (v : Option Settlement) : (s.setBuffer r v).clamped = s.clamped := by cases r <;> rfl
@[simp] theorem setBuffer_store (r : Rack) (v : Option Settlement) : (s.setBuffer r v).store = s.store := by cases r <;> rfl
@[simp] theorem setBuffer_storeFailure (r : Rack) (v : Option Settlement) : (s.setBuffer r v).storeFailure = s.storeFailure := by cases r <;> rfl
@[simp] theorem setBuffer_freeCount (r : Rack) (v : Option Settlement) : (s.setBuffer r v).freeCount = s.freeCount := by cases r <;> rfl
@[simp] theorem setBuffer_language (r : Rack) (v : Option Settlement) (j : Nat) : (s.setBuffer r v).language j = s.language j := by cases r <;> rfl
@[simp] theorem setBuffer_channel (r : Rack) (v : Option Settlement) (j : Nat) : (s.setBuffer r v).channel j = s.channel j := by cases r <;> rfl
@[simp] theorem setBuffer_booth (r : Rack) (v : Option Settlement) (j : Nat) : (s.setBuffer r v).booth j = s.booth j := by cases r <;> rfl
@[simp] theorem setBuffer_receiver (r : Rack) (v : Option Settlement) (j : Nat) : (s.setBuffer r v).receiver j = s.receiver j := by cases r <;> rfl
@[simp] theorem setBuffer_account (r : Rack) (v : Option Settlement) (j : Nat) : (s.setBuffer r v).account j = s.account j := by cases r <;> rfl
@[simp] theorem setBuffer_tariff (r : Rack) (v : Option Settlement) (j : Nat) : (s.setBuffer r v).tariff j = s.tariff j := by cases r <;> rfl
@[simp] theorem setBuffer_filter (r : Rack) (v : Option Settlement) (j : Nat) : (s.setBuffer r v).filter j = s.filter j := by cases r <;> rfl
@[simp] theorem setBuffer_report (r : Rack) (v : Option Settlement) (j : Nat) : (s.setBuffer r v).report j = s.report j := by cases r <;> rfl
@[simp] theorem setBuffer_rack (r : Rack) (v : Option Settlement) (x : Rack) : (s.setBuffer r v).rack x = s.rack x := by cases r <;> rfl
@[simp] theorem setBuffer_port (r : Rack) (v : Option Settlement) (x : Port) : (s.setBuffer r v).port x = s.port x := by cases r <;> rfl
@[simp] theorem setBuffer_now (r : Rack) (v : Option Settlement) : (s.setBuffer r v).now = s.now := by cases r <;> rfl
@[simp] theorem setBuffer_bySerial (r : Rack) (v : Option Settlement) (x : Nat) : (s.setBuffer r v).bySerial x = s.bySerial x := by cases r <;> rfl
@[simp] theorem setBuffer_openAccount (r : Rack) (v : Option Settlement) (x : AccountRef) : (s.setBuffer r v).openAccount x = s.openAccount x := by cases r <;> rfl
@[simp] theorem setBuffer_slot (r : Rack) (v : Option Settlement) (x : Rack) (k : Nat) : (s.setBuffer r v).slot x k = s.slot x k := by cases r <;> rfl
@[simp] theorem setBuffer_rackFitted (r : Rack) (v : Option Settlement) (x : Rack) : (s.setBuffer r v).rackFitted x = s.rackFitted x := by cases r <;> rfl
@[simp] theorem setBuffer_boothFitted (r : Rack) (v : Option Settlement) (x : Nat) : (s.setBuffer r v).boothFitted x = s.boothFitted x := by cases r <;> rfl

-- setReceiver

@[simp] theorem setReceiver_pending (i : Nat) (v : Option Receiver) : (s.setReceiver i v).pending = s.pending := rfl
@[simp] theorem setReceiver_run (i : Nat) (v : Option Receiver) : (s.setReceiver i v).run = s.run := rfl
@[simp] theorem setReceiver_startKind (i : Nat) (v : Option Receiver) : (s.setReceiver i v).startKind = s.startKind := rfl
@[simp] theorem setReceiver_marker (i : Nat) (v : Option Receiver) : (s.setReceiver i v).marker = s.marker := rfl
@[simp] theorem setReceiver_languages (i : Nat) (v : Option Receiver) : (s.setReceiver i v).languages = s.languages := rfl
@[simp] theorem setReceiver_channels (i : Nat) (v : Option Receiver) : (s.setReceiver i v).channels = s.channels := rfl
@[simp] theorem setReceiver_booths (i : Nat) (v : Option Receiver) : (s.setReceiver i v).booths = s.booths := rfl
@[simp] theorem setReceiver_accounts (i : Nat) (v : Option Receiver) : (s.setReceiver i v).accounts = s.accounts := rfl
@[simp] theorem setReceiver_tariffs (i : Nat) (v : Option Receiver) : (s.setReceiver i v).tariffs = s.tariffs := rfl
@[simp] theorem setReceiver_filters (i : Nat) (v : Option Receiver) : (s.setReceiver i v).filters = s.filters := rfl
@[simp] theorem setReceiver_bufferA (i : Nat) (v : Option Receiver) : (s.setReceiver i v).bufferA = s.bufferA := rfl
@[simp] theorem setReceiver_bufferB (i : Nat) (v : Option Receiver) : (s.setReceiver i v).bufferB = s.bufferB := rfl
@[simp] theorem setReceiver_reports (i : Nat) (v : Option Receiver) : (s.setReceiver i v).reports = s.reports := rfl
@[simp] theorem setReceiver_minute (i : Nat) (v : Option Receiver) : (s.setReceiver i v).minute = s.minute := rfl
@[simp] theorem setReceiver_day (i : Nat) (v : Option Receiver) : (s.setReceiver i v).day = s.day := rfl
@[simp] theorem setReceiver_suspect (i : Nat) (v : Option Receiver) : (s.setReceiver i v).suspect = s.suspect := rfl
@[simp] theorem setReceiver_second (i : Nat) (v : Option Receiver) : (s.setReceiver i v).second = s.second := rfl
@[simp] theorem setReceiver_rackA (i : Nat) (v : Option Receiver) : (s.setReceiver i v).rackA = s.rackA := rfl
@[simp] theorem setReceiver_rackB (i : Nat) (v : Option Receiver) : (s.setReceiver i v).rackB = s.rackB := rfl
@[simp] theorem setReceiver_opsPort (i : Nat) (v : Option Receiver) : (s.setReceiver i v).opsPort = s.opsPort := rfl
@[simp] theorem setReceiver_deskAPort (i : Nat) (v : Option Receiver) : (s.setReceiver i v).deskAPort = s.deskAPort := rfl
@[simp] theorem setReceiver_deskBPort (i : Nat) (v : Option Receiver) : (s.setReceiver i v).deskBPort = s.deskBPort := rfl
@[simp] theorem setReceiver_feed (i : Nat) (v : Option Receiver) : (s.setReceiver i v).feed = s.feed := rfl
@[simp] theorem setReceiver_line (i : Nat) (v : Option Receiver) : (s.setReceiver i v).line = s.line := rfl
@[simp] theorem setReceiver_profile (i : Nat) (v : Option Receiver) : (s.setReceiver i v).profile = s.profile := rfl
@[simp] theorem setReceiver_clamped (i : Nat) (v : Option Receiver) : (s.setReceiver i v).clamped = s.clamped := rfl
@[simp] theorem setReceiver_store (i : Nat) (v : Option Receiver) : (s.setReceiver i v).store = s.store := rfl
@[simp] theorem setReceiver_storeFailure (i : Nat) (v : Option Receiver) : (s.setReceiver i v).storeFailure = s.storeFailure := rfl
@[simp] theorem setReceiver_freeCount (i : Nat) (v : Option Receiver) : (s.setReceiver i v).freeCount = s.freeCount := rfl
@[simp] theorem setReceiver_language (i : Nat) (v : Option Receiver) (j : Nat) : (s.setReceiver i v).language j = s.language j := rfl
@[simp] theorem setReceiver_channel (i : Nat) (v : Option Receiver) (j : Nat) : (s.setReceiver i v).channel j = s.channel j := rfl
@[simp] theorem setReceiver_booth (i : Nat) (v : Option Receiver) (j : Nat) : (s.setReceiver i v).booth j = s.booth j := rfl
@[simp] theorem setReceiver_account (i : Nat) (v : Option Receiver) (j : Nat) : (s.setReceiver i v).account j = s.account j := rfl
@[simp] theorem setReceiver_tariff (i : Nat) (v : Option Receiver) (j : Nat) : (s.setReceiver i v).tariff j = s.tariff j := rfl
@[simp] theorem setReceiver_filter (i : Nat) (v : Option Receiver) (j : Nat) : (s.setReceiver i v).filter j = s.filter j := rfl
@[simp] theorem setReceiver_report (i : Nat) (v : Option Receiver) (j : Nat) : (s.setReceiver i v).report j = s.report j := rfl
@[simp] theorem setReceiver_rack (i : Nat) (v : Option Receiver) (x : Rack) : (s.setReceiver i v).rack x = s.rack x := rfl
@[simp] theorem setReceiver_buffer (i : Nat) (v : Option Receiver) (x : Rack) : (s.setReceiver i v).buffer x = s.buffer x := rfl
@[simp] theorem setReceiver_port (i : Nat) (v : Option Receiver) (x : Port) : (s.setReceiver i v).port x = s.port x := rfl
@[simp] theorem setReceiver_now (i : Nat) (v : Option Receiver) : (s.setReceiver i v).now = s.now := rfl
@[simp] theorem setReceiver_openAccount (i : Nat) (v : Option Receiver) (x : AccountRef) : (s.setReceiver i v).openAccount x = s.openAccount x := rfl
@[simp] theorem setReceiver_slot (i : Nat) (v : Option Receiver) (x : Rack) (k : Nat) : (s.setReceiver i v).slot x k = s.slot x k := rfl
@[simp] theorem setReceiver_rackFitted (i : Nat) (v : Option Receiver) (x : Rack) : (s.setReceiver i v).rackFitted x = s.rackFitted x := rfl
@[simp] theorem setReceiver_boothFitted (i : Nat) (v : Option Receiver) (x : Nat) : (s.setReceiver i v).boothFitted x = s.boothFitted x := rfl

-- setFilter

@[simp] theorem setFilter_pending (i : Nat) (v : Filter) : (s.setFilter i v).pending = s.pending := rfl
@[simp] theorem setFilter_run (i : Nat) (v : Filter) : (s.setFilter i v).run = s.run := rfl
@[simp] theorem setFilter_startKind (i : Nat) (v : Filter) : (s.setFilter i v).startKind = s.startKind := rfl
@[simp] theorem setFilter_marker (i : Nat) (v : Filter) : (s.setFilter i v).marker = s.marker := rfl
@[simp] theorem setFilter_languages (i : Nat) (v : Filter) : (s.setFilter i v).languages = s.languages := rfl
@[simp] theorem setFilter_channels (i : Nat) (v : Filter) : (s.setFilter i v).channels = s.channels := rfl
@[simp] theorem setFilter_booths (i : Nat) (v : Filter) : (s.setFilter i v).booths = s.booths := rfl
@[simp] theorem setFilter_receivers (i : Nat) (v : Filter) : (s.setFilter i v).receivers = s.receivers := rfl
@[simp] theorem setFilter_accounts (i : Nat) (v : Filter) : (s.setFilter i v).accounts = s.accounts := rfl
@[simp] theorem setFilter_tariffs (i : Nat) (v : Filter) : (s.setFilter i v).tariffs = s.tariffs := rfl
@[simp] theorem setFilter_bufferA (i : Nat) (v : Filter) : (s.setFilter i v).bufferA = s.bufferA := rfl
@[simp] theorem setFilter_bufferB (i : Nat) (v : Filter) : (s.setFilter i v).bufferB = s.bufferB := rfl
@[simp] theorem setFilter_reports (i : Nat) (v : Filter) : (s.setFilter i v).reports = s.reports := rfl
@[simp] theorem setFilter_minute (i : Nat) (v : Filter) : (s.setFilter i v).minute = s.minute := rfl
@[simp] theorem setFilter_day (i : Nat) (v : Filter) : (s.setFilter i v).day = s.day := rfl
@[simp] theorem setFilter_suspect (i : Nat) (v : Filter) : (s.setFilter i v).suspect = s.suspect := rfl
@[simp] theorem setFilter_second (i : Nat) (v : Filter) : (s.setFilter i v).second = s.second := rfl
@[simp] theorem setFilter_rackA (i : Nat) (v : Filter) : (s.setFilter i v).rackA = s.rackA := rfl
@[simp] theorem setFilter_rackB (i : Nat) (v : Filter) : (s.setFilter i v).rackB = s.rackB := rfl
@[simp] theorem setFilter_opsPort (i : Nat) (v : Filter) : (s.setFilter i v).opsPort = s.opsPort := rfl
@[simp] theorem setFilter_deskAPort (i : Nat) (v : Filter) : (s.setFilter i v).deskAPort = s.deskAPort := rfl
@[simp] theorem setFilter_deskBPort (i : Nat) (v : Filter) : (s.setFilter i v).deskBPort = s.deskBPort := rfl
@[simp] theorem setFilter_feed (i : Nat) (v : Filter) : (s.setFilter i v).feed = s.feed := rfl
@[simp] theorem setFilter_line (i : Nat) (v : Filter) : (s.setFilter i v).line = s.line := rfl
@[simp] theorem setFilter_profile (i : Nat) (v : Filter) : (s.setFilter i v).profile = s.profile := rfl
@[simp] theorem setFilter_clamped (i : Nat) (v : Filter) : (s.setFilter i v).clamped = s.clamped := rfl
@[simp] theorem setFilter_store (i : Nat) (v : Filter) : (s.setFilter i v).store = s.store := rfl
@[simp] theorem setFilter_storeFailure (i : Nat) (v : Filter) : (s.setFilter i v).storeFailure = s.storeFailure := rfl
@[simp] theorem setFilter_freeCount (i : Nat) (v : Filter) : (s.setFilter i v).freeCount = s.freeCount := rfl
@[simp] theorem setFilter_language (i : Nat) (v : Filter) (j : Nat) : (s.setFilter i v).language j = s.language j := rfl
@[simp] theorem setFilter_channel (i : Nat) (v : Filter) (j : Nat) : (s.setFilter i v).channel j = s.channel j := rfl
@[simp] theorem setFilter_booth (i : Nat) (v : Filter) (j : Nat) : (s.setFilter i v).booth j = s.booth j := rfl
@[simp] theorem setFilter_receiver (i : Nat) (v : Filter) (j : Nat) : (s.setFilter i v).receiver j = s.receiver j := rfl
@[simp] theorem setFilter_account (i : Nat) (v : Filter) (j : Nat) : (s.setFilter i v).account j = s.account j := rfl
@[simp] theorem setFilter_tariff (i : Nat) (v : Filter) (j : Nat) : (s.setFilter i v).tariff j = s.tariff j := rfl
@[simp] theorem setFilter_report (i : Nat) (v : Filter) (j : Nat) : (s.setFilter i v).report j = s.report j := rfl
@[simp] theorem setFilter_rack (i : Nat) (v : Filter) (x : Rack) : (s.setFilter i v).rack x = s.rack x := rfl
@[simp] theorem setFilter_buffer (i : Nat) (v : Filter) (x : Rack) : (s.setFilter i v).buffer x = s.buffer x := rfl
@[simp] theorem setFilter_port (i : Nat) (v : Filter) (x : Port) : (s.setFilter i v).port x = s.port x := rfl
@[simp] theorem setFilter_now (i : Nat) (v : Filter) : (s.setFilter i v).now = s.now := rfl
@[simp] theorem setFilter_bySerial (i : Nat) (v : Filter) (x : Nat) : (s.setFilter i v).bySerial x = s.bySerial x := rfl
@[simp] theorem setFilter_openAccount (i : Nat) (v : Filter) (x : AccountRef) : (s.setFilter i v).openAccount x = s.openAccount x := rfl
@[simp] theorem setFilter_slot (i : Nat) (v : Filter) (x : Rack) (k : Nat) : (s.setFilter i v).slot x k = s.slot x k := rfl
@[simp] theorem setFilter_rackFitted (i : Nat) (v : Filter) (x : Rack) : (s.setFilter i v).rackFitted x = s.rackFitted x := rfl
@[simp] theorem setFilter_boothFitted (i : Nat) (v : Filter) (x : Nat) : (s.setFilter i v).boothFitted x = s.boothFitted x := rfl

-- setReport

@[simp] theorem setReport_pending (i : Nat) (v : ClassReport) : (s.setReport i v).pending = s.pending := rfl
@[simp] theorem setReport_run (i : Nat) (v : ClassReport) : (s.setReport i v).run = s.run := rfl
@[simp] theorem setReport_startKind (i : Nat) (v : ClassReport) : (s.setReport i v).startKind = s.startKind := rfl
@[simp] theorem setReport_marker (i : Nat) (v : ClassReport) : (s.setReport i v).marker = s.marker := rfl
@[simp] theorem setReport_languages (i : Nat) (v : ClassReport) : (s.setReport i v).languages = s.languages := rfl
@[simp] theorem setReport_channels (i : Nat) (v : ClassReport) : (s.setReport i v).channels = s.channels := rfl
@[simp] theorem setReport_booths (i : Nat) (v : ClassReport) : (s.setReport i v).booths = s.booths := rfl
@[simp] theorem setReport_receivers (i : Nat) (v : ClassReport) : (s.setReport i v).receivers = s.receivers := rfl
@[simp] theorem setReport_accounts (i : Nat) (v : ClassReport) : (s.setReport i v).accounts = s.accounts := rfl
@[simp] theorem setReport_tariffs (i : Nat) (v : ClassReport) : (s.setReport i v).tariffs = s.tariffs := rfl
@[simp] theorem setReport_filters (i : Nat) (v : ClassReport) : (s.setReport i v).filters = s.filters := rfl
@[simp] theorem setReport_bufferA (i : Nat) (v : ClassReport) : (s.setReport i v).bufferA = s.bufferA := rfl
@[simp] theorem setReport_bufferB (i : Nat) (v : ClassReport) : (s.setReport i v).bufferB = s.bufferB := rfl
@[simp] theorem setReport_minute (i : Nat) (v : ClassReport) : (s.setReport i v).minute = s.minute := rfl
@[simp] theorem setReport_day (i : Nat) (v : ClassReport) : (s.setReport i v).day = s.day := rfl
@[simp] theorem setReport_suspect (i : Nat) (v : ClassReport) : (s.setReport i v).suspect = s.suspect := rfl
@[simp] theorem setReport_second (i : Nat) (v : ClassReport) : (s.setReport i v).second = s.second := rfl
@[simp] theorem setReport_rackA (i : Nat) (v : ClassReport) : (s.setReport i v).rackA = s.rackA := rfl
@[simp] theorem setReport_rackB (i : Nat) (v : ClassReport) : (s.setReport i v).rackB = s.rackB := rfl
@[simp] theorem setReport_opsPort (i : Nat) (v : ClassReport) : (s.setReport i v).opsPort = s.opsPort := rfl
@[simp] theorem setReport_deskAPort (i : Nat) (v : ClassReport) : (s.setReport i v).deskAPort = s.deskAPort := rfl
@[simp] theorem setReport_deskBPort (i : Nat) (v : ClassReport) : (s.setReport i v).deskBPort = s.deskBPort := rfl
@[simp] theorem setReport_feed (i : Nat) (v : ClassReport) : (s.setReport i v).feed = s.feed := rfl
@[simp] theorem setReport_line (i : Nat) (v : ClassReport) : (s.setReport i v).line = s.line := rfl
@[simp] theorem setReport_profile (i : Nat) (v : ClassReport) : (s.setReport i v).profile = s.profile := rfl
@[simp] theorem setReport_clamped (i : Nat) (v : ClassReport) : (s.setReport i v).clamped = s.clamped := rfl
@[simp] theorem setReport_store (i : Nat) (v : ClassReport) : (s.setReport i v).store = s.store := rfl
@[simp] theorem setReport_storeFailure (i : Nat) (v : ClassReport) : (s.setReport i v).storeFailure = s.storeFailure := rfl
@[simp] theorem setReport_freeCount (i : Nat) (v : ClassReport) : (s.setReport i v).freeCount = s.freeCount := rfl
@[simp] theorem setReport_language (i : Nat) (v : ClassReport) (j : Nat) : (s.setReport i v).language j = s.language j := rfl
@[simp] theorem setReport_channel (i : Nat) (v : ClassReport) (j : Nat) : (s.setReport i v).channel j = s.channel j := rfl
@[simp] theorem setReport_booth (i : Nat) (v : ClassReport) (j : Nat) : (s.setReport i v).booth j = s.booth j := rfl
@[simp] theorem setReport_receiver (i : Nat) (v : ClassReport) (j : Nat) : (s.setReport i v).receiver j = s.receiver j := rfl
@[simp] theorem setReport_account (i : Nat) (v : ClassReport) (j : Nat) : (s.setReport i v).account j = s.account j := rfl
@[simp] theorem setReport_tariff (i : Nat) (v : ClassReport) (j : Nat) : (s.setReport i v).tariff j = s.tariff j := rfl
@[simp] theorem setReport_filter (i : Nat) (v : ClassReport) (j : Nat) : (s.setReport i v).filter j = s.filter j := rfl
@[simp] theorem setReport_rack (i : Nat) (v : ClassReport) (x : Rack) : (s.setReport i v).rack x = s.rack x := rfl
@[simp] theorem setReport_buffer (i : Nat) (v : ClassReport) (x : Rack) : (s.setReport i v).buffer x = s.buffer x := rfl
@[simp] theorem setReport_port (i : Nat) (v : ClassReport) (x : Port) : (s.setReport i v).port x = s.port x := rfl
@[simp] theorem setReport_now (i : Nat) (v : ClassReport) : (s.setReport i v).now = s.now := rfl
@[simp] theorem setReport_bySerial (i : Nat) (v : ClassReport) (x : Nat) : (s.setReport i v).bySerial x = s.bySerial x := rfl
@[simp] theorem setReport_openAccount (i : Nat) (v : ClassReport) (x : AccountRef) : (s.setReport i v).openAccount x = s.openAccount x := rfl
@[simp] theorem setReport_slot (i : Nat) (v : ClassReport) (x : Rack) (k : Nat) : (s.setReport i v).slot x k = s.slot x k := rfl
@[simp] theorem setReport_rackFitted (i : Nat) (v : ClassReport) (x : Rack) : (s.setReport i v).rackFitted x = s.rackFitted x := rfl
@[simp] theorem setReport_boothFitted (i : Nat) (v : ClassReport) (x : Nat) : (s.setReport i v).boothFitted x = s.boothFitted x := rfl

-- clearReservations

@[simp] theorem clearReservations_pending (n : RecordName) : (s.clearReservations n).pending = s.pending := rfl
@[simp] theorem clearReservations_run (n : RecordName) : (s.clearReservations n).run = s.run := rfl
@[simp] theorem clearReservations_startKind (n : RecordName) : (s.clearReservations n).startKind = s.startKind := rfl
@[simp] theorem clearReservations_marker (n : RecordName) : (s.clearReservations n).marker = s.marker := rfl
@[simp] theorem clearReservations_languages (n : RecordName) : (s.clearReservations n).languages = s.languages := rfl
@[simp] theorem clearReservations_channels (n : RecordName) : (s.clearReservations n).channels = s.channels := rfl
@[simp] theorem clearReservations_booths (n : RecordName) : (s.clearReservations n).booths = s.booths := rfl
@[simp] theorem clearReservations_receivers (n : RecordName) : (s.clearReservations n).receivers = s.receivers := rfl
@[simp] theorem clearReservations_accounts (n : RecordName) : (s.clearReservations n).accounts = s.accounts := rfl
@[simp] theorem clearReservations_tariffs (n : RecordName) : (s.clearReservations n).tariffs = s.tariffs := rfl
@[simp] theorem clearReservations_filters (n : RecordName) : (s.clearReservations n).filters = s.filters := rfl
@[simp] theorem clearReservations_bufferA (n : RecordName) : (s.clearReservations n).bufferA = s.bufferA := rfl
@[simp] theorem clearReservations_bufferB (n : RecordName) : (s.clearReservations n).bufferB = s.bufferB := rfl
@[simp] theorem clearReservations_reports (n : RecordName) : (s.clearReservations n).reports = s.reports := rfl
@[simp] theorem clearReservations_minute (n : RecordName) : (s.clearReservations n).minute = s.minute := rfl
@[simp] theorem clearReservations_day (n : RecordName) : (s.clearReservations n).day = s.day := rfl
@[simp] theorem clearReservations_suspect (n : RecordName) : (s.clearReservations n).suspect = s.suspect := rfl
@[simp] theorem clearReservations_second (n : RecordName) : (s.clearReservations n).second = s.second := rfl
@[simp] theorem clearReservations_rackA (n : RecordName) : (s.clearReservations n).rackA = s.rackA := rfl
@[simp] theorem clearReservations_rackB (n : RecordName) : (s.clearReservations n).rackB = s.rackB := rfl
@[simp] theorem clearReservations_feed (n : RecordName) : (s.clearReservations n).feed = s.feed := rfl
@[simp] theorem clearReservations_line (n : RecordName) : (s.clearReservations n).line = s.line := rfl
@[simp] theorem clearReservations_profile (n : RecordName) : (s.clearReservations n).profile = s.profile := rfl
@[simp] theorem clearReservations_clamped (n : RecordName) : (s.clearReservations n).clamped = s.clamped := rfl
@[simp] theorem clearReservations_store (n : RecordName) : (s.clearReservations n).store = s.store := rfl
@[simp] theorem clearReservations_storeFailure (n : RecordName) : (s.clearReservations n).storeFailure = s.storeFailure := rfl
@[simp] theorem clearReservations_freeCount (n : RecordName) : (s.clearReservations n).freeCount = s.freeCount := rfl
@[simp] theorem clearReservations_language (n : RecordName) (j : Nat) : (s.clearReservations n).language j = s.language j := rfl
@[simp] theorem clearReservations_channel (n : RecordName) (j : Nat) : (s.clearReservations n).channel j = s.channel j := rfl
@[simp] theorem clearReservations_booth (n : RecordName) (j : Nat) : (s.clearReservations n).booth j = s.booth j := rfl
@[simp] theorem clearReservations_receiver (n : RecordName) (j : Nat) : (s.clearReservations n).receiver j = s.receiver j := rfl
@[simp] theorem clearReservations_account (n : RecordName) (j : Nat) : (s.clearReservations n).account j = s.account j := rfl
@[simp] theorem clearReservations_tariff (n : RecordName) (j : Nat) : (s.clearReservations n).tariff j = s.tariff j := rfl
@[simp] theorem clearReservations_filter (n : RecordName) (j : Nat) : (s.clearReservations n).filter j = s.filter j := rfl
@[simp] theorem clearReservations_report (n : RecordName) (j : Nat) : (s.clearReservations n).report j = s.report j := rfl
@[simp] theorem clearReservations_rack (n : RecordName) (x : Rack) : (s.clearReservations n).rack x = s.rack x := rfl
@[simp] theorem clearReservations_buffer (n : RecordName) (x : Rack) : (s.clearReservations n).buffer x = s.buffer x := rfl
@[simp] theorem clearReservations_now (n : RecordName) : (s.clearReservations n).now = s.now := rfl
@[simp] theorem clearReservations_bySerial (n : RecordName) (x : Nat) : (s.clearReservations n).bySerial x = s.bySerial x := rfl
@[simp] theorem clearReservations_openAccount (n : RecordName) (x : AccountRef) : (s.clearReservations n).openAccount x = s.openAccount x := rfl
@[simp] theorem clearReservations_slot (n : RecordName) (x : Rack) (k : Nat) : (s.clearReservations n).slot x k = s.slot x k := rfl
@[simp] theorem clearReservations_rackFitted (n : RecordName) (x : Rack) : (s.clearReservations n).rackFitted x = s.rackFitted x := rfl
@[simp] theorem clearReservations_boothFitted (n : RecordName) (x : Nat) : (s.clearReservations n).boothFitted x = s.boothFitted x := rfl

-- setLanguage

@[simp] theorem setLanguage_pending (i : Nat) (v : Language) : (s.setLanguage i v).pending = s.pending := by unfold State.setLanguage; dsimp only; split <;> rfl
@[simp] theorem setLanguage_run (i : Nat) (v : Language) : (s.setLanguage i v).run = s.run := by unfold State.setLanguage; dsimp only; split <;> rfl
@[simp] theorem setLanguage_startKind (i : Nat) (v : Language) : (s.setLanguage i v).startKind = s.startKind := by unfold State.setLanguage; dsimp only; split <;> rfl
@[simp] theorem setLanguage_marker (i : Nat) (v : Language) : (s.setLanguage i v).marker = s.marker := by unfold State.setLanguage; dsimp only; split <;> rfl
@[simp] theorem setLanguage_channels (i : Nat) (v : Language) : (s.setLanguage i v).channels = s.channels := by unfold State.setLanguage; dsimp only; split <;> rfl
@[simp] theorem setLanguage_booths (i : Nat) (v : Language) : (s.setLanguage i v).booths = s.booths := by unfold State.setLanguage; dsimp only; split <;> rfl
@[simp] theorem setLanguage_receivers (i : Nat) (v : Language) : (s.setLanguage i v).receivers = s.receivers := by unfold State.setLanguage; dsimp only; split <;> rfl
@[simp] theorem setLanguage_accounts (i : Nat) (v : Language) : (s.setLanguage i v).accounts = s.accounts := by unfold State.setLanguage; dsimp only; split <;> rfl
@[simp] theorem setLanguage_tariffs (i : Nat) (v : Language) : (s.setLanguage i v).tariffs = s.tariffs := by unfold State.setLanguage; dsimp only; split <;> rfl
@[simp] theorem setLanguage_filters (i : Nat) (v : Language) : (s.setLanguage i v).filters = s.filters := by unfold State.setLanguage; dsimp only; split <;> rfl
@[simp] theorem setLanguage_bufferA (i : Nat) (v : Language) : (s.setLanguage i v).bufferA = s.bufferA := by unfold State.setLanguage; dsimp only; split <;> rfl
@[simp] theorem setLanguage_bufferB (i : Nat) (v : Language) : (s.setLanguage i v).bufferB = s.bufferB := by unfold State.setLanguage; dsimp only; split <;> rfl
@[simp] theorem setLanguage_reports (i : Nat) (v : Language) : (s.setLanguage i v).reports = s.reports := by unfold State.setLanguage; dsimp only; split <;> rfl
@[simp] theorem setLanguage_minute (i : Nat) (v : Language) : (s.setLanguage i v).minute = s.minute := by unfold State.setLanguage; dsimp only; split <;> rfl
@[simp] theorem setLanguage_day (i : Nat) (v : Language) : (s.setLanguage i v).day = s.day := by unfold State.setLanguage; dsimp only; split <;> rfl
@[simp] theorem setLanguage_suspect (i : Nat) (v : Language) : (s.setLanguage i v).suspect = s.suspect := by unfold State.setLanguage; dsimp only; split <;> rfl
@[simp] theorem setLanguage_second (i : Nat) (v : Language) : (s.setLanguage i v).second = s.second := by unfold State.setLanguage; dsimp only; split <;> rfl
@[simp] theorem setLanguage_rackA (i : Nat) (v : Language) : (s.setLanguage i v).rackA = s.rackA := by unfold State.setLanguage; dsimp only; split <;> rfl
@[simp] theorem setLanguage_rackB (i : Nat) (v : Language) : (s.setLanguage i v).rackB = s.rackB := by unfold State.setLanguage; dsimp only; split <;> rfl
@[simp] theorem setLanguage_feed (i : Nat) (v : Language) : (s.setLanguage i v).feed = s.feed := by unfold State.setLanguage; dsimp only; split <;> rfl
@[simp] theorem setLanguage_line (i : Nat) (v : Language) : (s.setLanguage i v).line = s.line := by unfold State.setLanguage; dsimp only; split <;> rfl
@[simp] theorem setLanguage_profile (i : Nat) (v : Language) : (s.setLanguage i v).profile = s.profile := by unfold State.setLanguage; dsimp only; split <;> rfl
@[simp] theorem setLanguage_clamped (i : Nat) (v : Language) : (s.setLanguage i v).clamped = s.clamped := by unfold State.setLanguage; dsimp only; split <;> rfl
@[simp] theorem setLanguage_store (i : Nat) (v : Language) : (s.setLanguage i v).store = s.store := by unfold State.setLanguage; dsimp only; split <;> rfl
@[simp] theorem setLanguage_storeFailure (i : Nat) (v : Language) : (s.setLanguage i v).storeFailure = s.storeFailure := by unfold State.setLanguage; dsimp only; split <;> rfl
@[simp] theorem setLanguage_freeCount (i : Nat) (v : Language) : (s.setLanguage i v).freeCount = s.freeCount := by unfold State.setLanguage; dsimp only; split <;> rfl
@[simp] theorem setLanguage_channel (i : Nat) (v : Language) (j : Nat) : (s.setLanguage i v).channel j = s.channel j := by unfold State.setLanguage; dsimp only; split <;> rfl
@[simp] theorem setLanguage_booth (i : Nat) (v : Language) (j : Nat) : (s.setLanguage i v).booth j = s.booth j := by unfold State.setLanguage; dsimp only; split <;> rfl
@[simp] theorem setLanguage_receiver (i : Nat) (v : Language) (j : Nat) : (s.setLanguage i v).receiver j = s.receiver j := by unfold State.setLanguage; dsimp only; split <;> rfl
@[simp] theorem setLanguage_account (i : Nat) (v : Language) (j : Nat) : (s.setLanguage i v).account j = s.account j := by unfold State.setLanguage; dsimp only; split <;> rfl
@[simp] theorem setLanguage_tariff (i : Nat) (v : Language) (j : Nat) : (s.setLanguage i v).tariff j = s.tariff j := by unfold State.setLanguage; dsimp only; split <;> rfl
@[simp] theorem setLanguage_filter (i : Nat) (v : Language) (j : Nat) : (s.setLanguage i v).filter j = s.filter j := by unfold State.setLanguage; dsimp only; split <;> rfl
@[simp] theorem setLanguage_report (i : Nat) (v : Language) (j : Nat) : (s.setLanguage i v).report j = s.report j := by unfold State.setLanguage; dsimp only; split <;> rfl
@[simp] theorem setLanguage_rack (i : Nat) (v : Language) (x : Rack) : (s.setLanguage i v).rack x = s.rack x := by unfold State.setLanguage; dsimp only; split <;> rfl
@[simp] theorem setLanguage_buffer (i : Nat) (v : Language) (x : Rack) : (s.setLanguage i v).buffer x = s.buffer x := by unfold State.setLanguage; dsimp only; split <;> rfl
@[simp] theorem setLanguage_now (i : Nat) (v : Language) : (s.setLanguage i v).now = s.now := by unfold State.setLanguage; dsimp only; split <;> rfl
@[simp] theorem setLanguage_bySerial (i : Nat) (v : Language) (x : Nat) : (s.setLanguage i v).bySerial x = s.bySerial x := by unfold State.setLanguage; dsimp only; split <;> rfl
@[simp] theorem setLanguage_openAccount (i : Nat) (v : Language) (x : AccountRef) : (s.setLanguage i v).openAccount x = s.openAccount x := by unfold State.setLanguage; dsimp only; split <;> rfl
@[simp] theorem setLanguage_slot (i : Nat) (v : Language) (x : Rack) (k : Nat) : (s.setLanguage i v).slot x k = s.slot x k := by unfold State.setLanguage; dsimp only; split <;> rfl
@[simp] theorem setLanguage_rackFitted (i : Nat) (v : Language) (x : Rack) : (s.setLanguage i v).rackFitted x = s.rackFitted x := by unfold State.setLanguage; dsimp only; split <;> rfl
@[simp] theorem setLanguage_boothFitted (i : Nat) (v : Language) (x : Nat) : (s.setLanguage i v).boothFitted x = s.boothFitted x := by unfold State.setLanguage; dsimp only; split <;> rfl

-- setChannel

@[simp] theorem setChannel_pending (i : Nat) (v : Channel) : (s.setChannel i v).pending = s.pending := by unfold State.setChannel; dsimp only; split <;> rfl
@[simp] theorem setChannel_run (i : Nat) (v : Channel) : (s.setChannel i v).run = s.run := by unfold State.setChannel; dsimp only; split <;> rfl
@[simp] theorem setChannel_startKind (i : Nat) (v : Channel) : (s.setChannel i v).startKind = s.startKind := by unfold State.setChannel; dsimp only; split <;> rfl
@[simp] theorem setChannel_marker (i : Nat) (v : Channel) : (s.setChannel i v).marker = s.marker := by unfold State.setChannel; dsimp only; split <;> rfl
@[simp] theorem setChannel_languages (i : Nat) (v : Channel) : (s.setChannel i v).languages = s.languages := by unfold State.setChannel; dsimp only; split <;> rfl
@[simp] theorem setChannel_booths (i : Nat) (v : Channel) : (s.setChannel i v).booths = s.booths := by unfold State.setChannel; dsimp only; split <;> rfl
@[simp] theorem setChannel_receivers (i : Nat) (v : Channel) : (s.setChannel i v).receivers = s.receivers := by unfold State.setChannel; dsimp only; split <;> rfl
@[simp] theorem setChannel_accounts (i : Nat) (v : Channel) : (s.setChannel i v).accounts = s.accounts := by unfold State.setChannel; dsimp only; split <;> rfl
@[simp] theorem setChannel_tariffs (i : Nat) (v : Channel) : (s.setChannel i v).tariffs = s.tariffs := by unfold State.setChannel; dsimp only; split <;> rfl
@[simp] theorem setChannel_filters (i : Nat) (v : Channel) : (s.setChannel i v).filters = s.filters := by unfold State.setChannel; dsimp only; split <;> rfl
@[simp] theorem setChannel_bufferA (i : Nat) (v : Channel) : (s.setChannel i v).bufferA = s.bufferA := by unfold State.setChannel; dsimp only; split <;> rfl
@[simp] theorem setChannel_bufferB (i : Nat) (v : Channel) : (s.setChannel i v).bufferB = s.bufferB := by unfold State.setChannel; dsimp only; split <;> rfl
@[simp] theorem setChannel_reports (i : Nat) (v : Channel) : (s.setChannel i v).reports = s.reports := by unfold State.setChannel; dsimp only; split <;> rfl
@[simp] theorem setChannel_minute (i : Nat) (v : Channel) : (s.setChannel i v).minute = s.minute := by unfold State.setChannel; dsimp only; split <;> rfl
@[simp] theorem setChannel_day (i : Nat) (v : Channel) : (s.setChannel i v).day = s.day := by unfold State.setChannel; dsimp only; split <;> rfl
@[simp] theorem setChannel_suspect (i : Nat) (v : Channel) : (s.setChannel i v).suspect = s.suspect := by unfold State.setChannel; dsimp only; split <;> rfl
@[simp] theorem setChannel_second (i : Nat) (v : Channel) : (s.setChannel i v).second = s.second := by unfold State.setChannel; dsimp only; split <;> rfl
@[simp] theorem setChannel_rackA (i : Nat) (v : Channel) : (s.setChannel i v).rackA = s.rackA := by unfold State.setChannel; dsimp only; split <;> rfl
@[simp] theorem setChannel_rackB (i : Nat) (v : Channel) : (s.setChannel i v).rackB = s.rackB := by unfold State.setChannel; dsimp only; split <;> rfl
@[simp] theorem setChannel_feed (i : Nat) (v : Channel) : (s.setChannel i v).feed = s.feed := by unfold State.setChannel; dsimp only; split <;> rfl
@[simp] theorem setChannel_line (i : Nat) (v : Channel) : (s.setChannel i v).line = s.line := by unfold State.setChannel; dsimp only; split <;> rfl
@[simp] theorem setChannel_profile (i : Nat) (v : Channel) : (s.setChannel i v).profile = s.profile := by unfold State.setChannel; dsimp only; split <;> rfl
@[simp] theorem setChannel_clamped (i : Nat) (v : Channel) : (s.setChannel i v).clamped = s.clamped := by unfold State.setChannel; dsimp only; split <;> rfl
@[simp] theorem setChannel_store (i : Nat) (v : Channel) : (s.setChannel i v).store = s.store := by unfold State.setChannel; dsimp only; split <;> rfl
@[simp] theorem setChannel_storeFailure (i : Nat) (v : Channel) : (s.setChannel i v).storeFailure = s.storeFailure := by unfold State.setChannel; dsimp only; split <;> rfl
@[simp] theorem setChannel_freeCount (i : Nat) (v : Channel) : (s.setChannel i v).freeCount = s.freeCount := by unfold State.setChannel; dsimp only; split <;> rfl
@[simp] theorem setChannel_language (i : Nat) (v : Channel) (j : Nat) : (s.setChannel i v).language j = s.language j := by unfold State.setChannel; dsimp only; split <;> rfl
@[simp] theorem setChannel_booth (i : Nat) (v : Channel) (j : Nat) : (s.setChannel i v).booth j = s.booth j := by unfold State.setChannel; dsimp only; split <;> rfl
@[simp] theorem setChannel_receiver (i : Nat) (v : Channel) (j : Nat) : (s.setChannel i v).receiver j = s.receiver j := by unfold State.setChannel; dsimp only; split <;> rfl
@[simp] theorem setChannel_account (i : Nat) (v : Channel) (j : Nat) : (s.setChannel i v).account j = s.account j := by unfold State.setChannel; dsimp only; split <;> rfl
@[simp] theorem setChannel_tariff (i : Nat) (v : Channel) (j : Nat) : (s.setChannel i v).tariff j = s.tariff j := by unfold State.setChannel; dsimp only; split <;> rfl
@[simp] theorem setChannel_filter (i : Nat) (v : Channel) (j : Nat) : (s.setChannel i v).filter j = s.filter j := by unfold State.setChannel; dsimp only; split <;> rfl
@[simp] theorem setChannel_report (i : Nat) (v : Channel) (j : Nat) : (s.setChannel i v).report j = s.report j := by unfold State.setChannel; dsimp only; split <;> rfl
@[simp] theorem setChannel_rack (i : Nat) (v : Channel) (x : Rack) : (s.setChannel i v).rack x = s.rack x := by unfold State.setChannel; dsimp only; split <;> rfl
@[simp] theorem setChannel_buffer (i : Nat) (v : Channel) (x : Rack) : (s.setChannel i v).buffer x = s.buffer x := by unfold State.setChannel; dsimp only; split <;> rfl
@[simp] theorem setChannel_now (i : Nat) (v : Channel) : (s.setChannel i v).now = s.now := by unfold State.setChannel; dsimp only; split <;> rfl
@[simp] theorem setChannel_bySerial (i : Nat) (v : Channel) (x : Nat) : (s.setChannel i v).bySerial x = s.bySerial x := by unfold State.setChannel; dsimp only; split <;> rfl
@[simp] theorem setChannel_openAccount (i : Nat) (v : Channel) (x : AccountRef) : (s.setChannel i v).openAccount x = s.openAccount x := by unfold State.setChannel; dsimp only; split <;> rfl
@[simp] theorem setChannel_slot (i : Nat) (v : Channel) (x : Rack) (k : Nat) : (s.setChannel i v).slot x k = s.slot x k := by unfold State.setChannel; dsimp only; split <;> rfl
@[simp] theorem setChannel_rackFitted (i : Nat) (v : Channel) (x : Rack) : (s.setChannel i v).rackFitted x = s.rackFitted x := by unfold State.setChannel; dsimp only; split <;> rfl
@[simp] theorem setChannel_boothFitted (i : Nat) (v : Channel) (x : Nat) : (s.setChannel i v).boothFitted x = s.boothFitted x := by unfold State.setChannel; dsimp only; split <;> rfl

-- setBooth

@[simp] theorem setBooth_pending (i : Nat) (v : Booth) : (s.setBooth i v).pending = s.pending := by unfold State.setBooth; dsimp only; split <;> rfl
@[simp] theorem setBooth_run (i : Nat) (v : Booth) : (s.setBooth i v).run = s.run := by unfold State.setBooth; dsimp only; split <;> rfl
@[simp] theorem setBooth_startKind (i : Nat) (v : Booth) : (s.setBooth i v).startKind = s.startKind := by unfold State.setBooth; dsimp only; split <;> rfl
@[simp] theorem setBooth_marker (i : Nat) (v : Booth) : (s.setBooth i v).marker = s.marker := by unfold State.setBooth; dsimp only; split <;> rfl
@[simp] theorem setBooth_languages (i : Nat) (v : Booth) : (s.setBooth i v).languages = s.languages := by unfold State.setBooth; dsimp only; split <;> rfl
@[simp] theorem setBooth_channels (i : Nat) (v : Booth) : (s.setBooth i v).channels = s.channels := by unfold State.setBooth; dsimp only; split <;> rfl
@[simp] theorem setBooth_receivers (i : Nat) (v : Booth) : (s.setBooth i v).receivers = s.receivers := by unfold State.setBooth; dsimp only; split <;> rfl
@[simp] theorem setBooth_accounts (i : Nat) (v : Booth) : (s.setBooth i v).accounts = s.accounts := by unfold State.setBooth; dsimp only; split <;> rfl
@[simp] theorem setBooth_tariffs (i : Nat) (v : Booth) : (s.setBooth i v).tariffs = s.tariffs := by unfold State.setBooth; dsimp only; split <;> rfl
@[simp] theorem setBooth_filters (i : Nat) (v : Booth) : (s.setBooth i v).filters = s.filters := by unfold State.setBooth; dsimp only; split <;> rfl
@[simp] theorem setBooth_bufferA (i : Nat) (v : Booth) : (s.setBooth i v).bufferA = s.bufferA := by unfold State.setBooth; dsimp only; split <;> rfl
@[simp] theorem setBooth_bufferB (i : Nat) (v : Booth) : (s.setBooth i v).bufferB = s.bufferB := by unfold State.setBooth; dsimp only; split <;> rfl
@[simp] theorem setBooth_reports (i : Nat) (v : Booth) : (s.setBooth i v).reports = s.reports := by unfold State.setBooth; dsimp only; split <;> rfl
@[simp] theorem setBooth_minute (i : Nat) (v : Booth) : (s.setBooth i v).minute = s.minute := by unfold State.setBooth; dsimp only; split <;> rfl
@[simp] theorem setBooth_day (i : Nat) (v : Booth) : (s.setBooth i v).day = s.day := by unfold State.setBooth; dsimp only; split <;> rfl
@[simp] theorem setBooth_suspect (i : Nat) (v : Booth) : (s.setBooth i v).suspect = s.suspect := by unfold State.setBooth; dsimp only; split <;> rfl
@[simp] theorem setBooth_second (i : Nat) (v : Booth) : (s.setBooth i v).second = s.second := by unfold State.setBooth; dsimp only; split <;> rfl
@[simp] theorem setBooth_rackA (i : Nat) (v : Booth) : (s.setBooth i v).rackA = s.rackA := by unfold State.setBooth; dsimp only; split <;> rfl
@[simp] theorem setBooth_rackB (i : Nat) (v : Booth) : (s.setBooth i v).rackB = s.rackB := by unfold State.setBooth; dsimp only; split <;> rfl
@[simp] theorem setBooth_feed (i : Nat) (v : Booth) : (s.setBooth i v).feed = s.feed := by unfold State.setBooth; dsimp only; split <;> rfl
@[simp] theorem setBooth_line (i : Nat) (v : Booth) : (s.setBooth i v).line = s.line := by unfold State.setBooth; dsimp only; split <;> rfl
@[simp] theorem setBooth_profile (i : Nat) (v : Booth) : (s.setBooth i v).profile = s.profile := by unfold State.setBooth; dsimp only; split <;> rfl
@[simp] theorem setBooth_clamped (i : Nat) (v : Booth) : (s.setBooth i v).clamped = s.clamped := by unfold State.setBooth; dsimp only; split <;> rfl
@[simp] theorem setBooth_store (i : Nat) (v : Booth) : (s.setBooth i v).store = s.store := by unfold State.setBooth; dsimp only; split <;> rfl
@[simp] theorem setBooth_storeFailure (i : Nat) (v : Booth) : (s.setBooth i v).storeFailure = s.storeFailure := by unfold State.setBooth; dsimp only; split <;> rfl
@[simp] theorem setBooth_freeCount (i : Nat) (v : Booth) : (s.setBooth i v).freeCount = s.freeCount := by unfold State.setBooth; dsimp only; split <;> rfl
@[simp] theorem setBooth_language (i : Nat) (v : Booth) (j : Nat) : (s.setBooth i v).language j = s.language j := by unfold State.setBooth; dsimp only; split <;> rfl
@[simp] theorem setBooth_channel (i : Nat) (v : Booth) (j : Nat) : (s.setBooth i v).channel j = s.channel j := by unfold State.setBooth; dsimp only; split <;> rfl
@[simp] theorem setBooth_receiver (i : Nat) (v : Booth) (j : Nat) : (s.setBooth i v).receiver j = s.receiver j := by unfold State.setBooth; dsimp only; split <;> rfl
@[simp] theorem setBooth_account (i : Nat) (v : Booth) (j : Nat) : (s.setBooth i v).account j = s.account j := by unfold State.setBooth; dsimp only; split <;> rfl
@[simp] theorem setBooth_tariff (i : Nat) (v : Booth) (j : Nat) : (s.setBooth i v).tariff j = s.tariff j := by unfold State.setBooth; dsimp only; split <;> rfl
@[simp] theorem setBooth_filter (i : Nat) (v : Booth) (j : Nat) : (s.setBooth i v).filter j = s.filter j := by unfold State.setBooth; dsimp only; split <;> rfl
@[simp] theorem setBooth_report (i : Nat) (v : Booth) (j : Nat) : (s.setBooth i v).report j = s.report j := by unfold State.setBooth; dsimp only; split <;> rfl
@[simp] theorem setBooth_rack (i : Nat) (v : Booth) (x : Rack) : (s.setBooth i v).rack x = s.rack x := by unfold State.setBooth; dsimp only; split <;> rfl
@[simp] theorem setBooth_buffer (i : Nat) (v : Booth) (x : Rack) : (s.setBooth i v).buffer x = s.buffer x := by unfold State.setBooth; dsimp only; split <;> rfl
@[simp] theorem setBooth_now (i : Nat) (v : Booth) : (s.setBooth i v).now = s.now := by unfold State.setBooth; dsimp only; split <;> rfl
@[simp] theorem setBooth_bySerial (i : Nat) (v : Booth) (x : Nat) : (s.setBooth i v).bySerial x = s.bySerial x := by unfold State.setBooth; dsimp only; split <;> rfl
@[simp] theorem setBooth_openAccount (i : Nat) (v : Booth) (x : AccountRef) : (s.setBooth i v).openAccount x = s.openAccount x := by unfold State.setBooth; dsimp only; split <;> rfl
@[simp] theorem setBooth_slot (i : Nat) (v : Booth) (x : Rack) (k : Nat) : (s.setBooth i v).slot x k = s.slot x k := by unfold State.setBooth; dsimp only; split <;> rfl
@[simp] theorem setBooth_rackFitted (i : Nat) (v : Booth) (x : Rack) : (s.setBooth i v).rackFitted x = s.rackFitted x := by unfold State.setBooth; dsimp only; split <;> rfl
@[simp] theorem setBooth_boothFitted (i : Nat) (v : Booth) (x : Nat) : (s.setBooth i v).boothFitted x = s.boothFitted x := by unfold State.setBooth; dsimp only; split <;> rfl

-- setAccount

@[simp] theorem setAccount_pending (i : Nat) (v : Account) : (s.setAccount i v).pending = s.pending := by unfold State.setAccount; dsimp only; split <;> rfl
@[simp] theorem setAccount_run (i : Nat) (v : Account) : (s.setAccount i v).run = s.run := by unfold State.setAccount; dsimp only; split <;> rfl
@[simp] theorem setAccount_startKind (i : Nat) (v : Account) : (s.setAccount i v).startKind = s.startKind := by unfold State.setAccount; dsimp only; split <;> rfl
@[simp] theorem setAccount_marker (i : Nat) (v : Account) : (s.setAccount i v).marker = s.marker := by unfold State.setAccount; dsimp only; split <;> rfl
@[simp] theorem setAccount_languages (i : Nat) (v : Account) : (s.setAccount i v).languages = s.languages := by unfold State.setAccount; dsimp only; split <;> rfl
@[simp] theorem setAccount_channels (i : Nat) (v : Account) : (s.setAccount i v).channels = s.channels := by unfold State.setAccount; dsimp only; split <;> rfl
@[simp] theorem setAccount_booths (i : Nat) (v : Account) : (s.setAccount i v).booths = s.booths := by unfold State.setAccount; dsimp only; split <;> rfl
@[simp] theorem setAccount_receivers (i : Nat) (v : Account) : (s.setAccount i v).receivers = s.receivers := by unfold State.setAccount; dsimp only; split <;> rfl
@[simp] theorem setAccount_tariffs (i : Nat) (v : Account) : (s.setAccount i v).tariffs = s.tariffs := by unfold State.setAccount; dsimp only; split <;> rfl
@[simp] theorem setAccount_filters (i : Nat) (v : Account) : (s.setAccount i v).filters = s.filters := by unfold State.setAccount; dsimp only; split <;> rfl
@[simp] theorem setAccount_bufferA (i : Nat) (v : Account) : (s.setAccount i v).bufferA = s.bufferA := by unfold State.setAccount; dsimp only; split <;> rfl
@[simp] theorem setAccount_bufferB (i : Nat) (v : Account) : (s.setAccount i v).bufferB = s.bufferB := by unfold State.setAccount; dsimp only; split <;> rfl
@[simp] theorem setAccount_reports (i : Nat) (v : Account) : (s.setAccount i v).reports = s.reports := by unfold State.setAccount; dsimp only; split <;> rfl
@[simp] theorem setAccount_minute (i : Nat) (v : Account) : (s.setAccount i v).minute = s.minute := by unfold State.setAccount; dsimp only; split <;> rfl
@[simp] theorem setAccount_day (i : Nat) (v : Account) : (s.setAccount i v).day = s.day := by unfold State.setAccount; dsimp only; split <;> rfl
@[simp] theorem setAccount_suspect (i : Nat) (v : Account) : (s.setAccount i v).suspect = s.suspect := by unfold State.setAccount; dsimp only; split <;> rfl
@[simp] theorem setAccount_second (i : Nat) (v : Account) : (s.setAccount i v).second = s.second := by unfold State.setAccount; dsimp only; split <;> rfl
@[simp] theorem setAccount_rackA (i : Nat) (v : Account) : (s.setAccount i v).rackA = s.rackA := by unfold State.setAccount; dsimp only; split <;> rfl
@[simp] theorem setAccount_rackB (i : Nat) (v : Account) : (s.setAccount i v).rackB = s.rackB := by unfold State.setAccount; dsimp only; split <;> rfl
@[simp] theorem setAccount_feed (i : Nat) (v : Account) : (s.setAccount i v).feed = s.feed := by unfold State.setAccount; dsimp only; split <;> rfl
@[simp] theorem setAccount_line (i : Nat) (v : Account) : (s.setAccount i v).line = s.line := by unfold State.setAccount; dsimp only; split <;> rfl
@[simp] theorem setAccount_profile (i : Nat) (v : Account) : (s.setAccount i v).profile = s.profile := by unfold State.setAccount; dsimp only; split <;> rfl
@[simp] theorem setAccount_clamped (i : Nat) (v : Account) : (s.setAccount i v).clamped = s.clamped := by unfold State.setAccount; dsimp only; split <;> rfl
@[simp] theorem setAccount_store (i : Nat) (v : Account) : (s.setAccount i v).store = s.store := by unfold State.setAccount; dsimp only; split <;> rfl
@[simp] theorem setAccount_storeFailure (i : Nat) (v : Account) : (s.setAccount i v).storeFailure = s.storeFailure := by unfold State.setAccount; dsimp only; split <;> rfl
@[simp] theorem setAccount_freeCount (i : Nat) (v : Account) : (s.setAccount i v).freeCount = s.freeCount := by unfold State.setAccount; dsimp only; split <;> rfl
@[simp] theorem setAccount_language (i : Nat) (v : Account) (j : Nat) : (s.setAccount i v).language j = s.language j := by unfold State.setAccount; dsimp only; split <;> rfl
@[simp] theorem setAccount_channel (i : Nat) (v : Account) (j : Nat) : (s.setAccount i v).channel j = s.channel j := by unfold State.setAccount; dsimp only; split <;> rfl
@[simp] theorem setAccount_booth (i : Nat) (v : Account) (j : Nat) : (s.setAccount i v).booth j = s.booth j := by unfold State.setAccount; dsimp only; split <;> rfl
@[simp] theorem setAccount_receiver (i : Nat) (v : Account) (j : Nat) : (s.setAccount i v).receiver j = s.receiver j := by unfold State.setAccount; dsimp only; split <;> rfl
@[simp] theorem setAccount_tariff (i : Nat) (v : Account) (j : Nat) : (s.setAccount i v).tariff j = s.tariff j := by unfold State.setAccount; dsimp only; split <;> rfl
@[simp] theorem setAccount_filter (i : Nat) (v : Account) (j : Nat) : (s.setAccount i v).filter j = s.filter j := by unfold State.setAccount; dsimp only; split <;> rfl
@[simp] theorem setAccount_report (i : Nat) (v : Account) (j : Nat) : (s.setAccount i v).report j = s.report j := by unfold State.setAccount; dsimp only; split <;> rfl
@[simp] theorem setAccount_rack (i : Nat) (v : Account) (x : Rack) : (s.setAccount i v).rack x = s.rack x := by unfold State.setAccount; dsimp only; split <;> rfl
@[simp] theorem setAccount_buffer (i : Nat) (v : Account) (x : Rack) : (s.setAccount i v).buffer x = s.buffer x := by unfold State.setAccount; dsimp only; split <;> rfl
@[simp] theorem setAccount_now (i : Nat) (v : Account) : (s.setAccount i v).now = s.now := by unfold State.setAccount; dsimp only; split <;> rfl
@[simp] theorem setAccount_bySerial (i : Nat) (v : Account) (x : Nat) : (s.setAccount i v).bySerial x = s.bySerial x := by unfold State.setAccount; dsimp only; split <;> rfl
@[simp] theorem setAccount_slot (i : Nat) (v : Account) (x : Rack) (k : Nat) : (s.setAccount i v).slot x k = s.slot x k := by unfold State.setAccount; dsimp only; split <;> rfl
@[simp] theorem setAccount_rackFitted (i : Nat) (v : Account) (x : Rack) : (s.setAccount i v).rackFitted x = s.rackFitted x := by unfold State.setAccount; dsimp only; split <;> rfl
@[simp] theorem setAccount_boothFitted (i : Nat) (v : Account) (x : Nat) : (s.setAccount i v).boothFitted x = s.boothFitted x := by unfold State.setAccount; dsimp only; split <;> rfl

-- setTariff

@[simp] theorem setTariff_pending (i : Nat) (v : Tariff) : (s.setTariff i v).pending = s.pending := rfl
@[simp] theorem setTariff_run (i : Nat) (v : Tariff) : (s.setTariff i v).run = s.run := rfl
@[simp] theorem setTariff_startKind (i : Nat) (v : Tariff) : (s.setTariff i v).startKind = s.startKind := rfl
@[simp] theorem setTariff_marker (i : Nat) (v : Tariff) : (s.setTariff i v).marker = s.marker := rfl
@[simp] theorem setTariff_languages (i : Nat) (v : Tariff) : (s.setTariff i v).languages = s.languages := rfl
@[simp] theorem setTariff_channels (i : Nat) (v : Tariff) : (s.setTariff i v).channels = s.channels := rfl
@[simp] theorem setTariff_booths (i : Nat) (v : Tariff) : (s.setTariff i v).booths = s.booths := rfl
@[simp] theorem setTariff_receivers (i : Nat) (v : Tariff) : (s.setTariff i v).receivers = s.receivers := rfl
@[simp] theorem setTariff_accounts (i : Nat) (v : Tariff) : (s.setTariff i v).accounts = s.accounts := rfl
@[simp] theorem setTariff_filters (i : Nat) (v : Tariff) : (s.setTariff i v).filters = s.filters := rfl
@[simp] theorem setTariff_bufferA (i : Nat) (v : Tariff) : (s.setTariff i v).bufferA = s.bufferA := rfl
@[simp] theorem setTariff_bufferB (i : Nat) (v : Tariff) : (s.setTariff i v).bufferB = s.bufferB := rfl
@[simp] theorem setTariff_reports (i : Nat) (v : Tariff) : (s.setTariff i v).reports = s.reports := rfl
@[simp] theorem setTariff_minute (i : Nat) (v : Tariff) : (s.setTariff i v).minute = s.minute := rfl
@[simp] theorem setTariff_day (i : Nat) (v : Tariff) : (s.setTariff i v).day = s.day := rfl
@[simp] theorem setTariff_suspect (i : Nat) (v : Tariff) : (s.setTariff i v).suspect = s.suspect := rfl
@[simp] theorem setTariff_second (i : Nat) (v : Tariff) : (s.setTariff i v).second = s.second := rfl
@[simp] theorem setTariff_rackA (i : Nat) (v : Tariff) : (s.setTariff i v).rackA = s.rackA := rfl
@[simp] theorem setTariff_rackB (i : Nat) (v : Tariff) : (s.setTariff i v).rackB = s.rackB := rfl
@[simp] theorem setTariff_feed (i : Nat) (v : Tariff) : (s.setTariff i v).feed = s.feed := rfl
@[simp] theorem setTariff_line (i : Nat) (v : Tariff) : (s.setTariff i v).line = s.line := rfl
@[simp] theorem setTariff_profile (i : Nat) (v : Tariff) : (s.setTariff i v).profile = s.profile := rfl
@[simp] theorem setTariff_clamped (i : Nat) (v : Tariff) : (s.setTariff i v).clamped = s.clamped := rfl
@[simp] theorem setTariff_store (i : Nat) (v : Tariff) : (s.setTariff i v).store = s.store := rfl
@[simp] theorem setTariff_storeFailure (i : Nat) (v : Tariff) : (s.setTariff i v).storeFailure = s.storeFailure := rfl
@[simp] theorem setTariff_freeCount (i : Nat) (v : Tariff) : (s.setTariff i v).freeCount = s.freeCount := rfl
@[simp] theorem setTariff_language (i : Nat) (v : Tariff) (j : Nat) : (s.setTariff i v).language j = s.language j := rfl
@[simp] theorem setTariff_channel (i : Nat) (v : Tariff) (j : Nat) : (s.setTariff i v).channel j = s.channel j := rfl
@[simp] theorem setTariff_booth (i : Nat) (v : Tariff) (j : Nat) : (s.setTariff i v).booth j = s.booth j := rfl
@[simp] theorem setTariff_receiver (i : Nat) (v : Tariff) (j : Nat) : (s.setTariff i v).receiver j = s.receiver j := rfl
@[simp] theorem setTariff_account (i : Nat) (v : Tariff) (j : Nat) : (s.setTariff i v).account j = s.account j := rfl
@[simp] theorem setTariff_filter (i : Nat) (v : Tariff) (j : Nat) : (s.setTariff i v).filter j = s.filter j := rfl
@[simp] theorem setTariff_report (i : Nat) (v : Tariff) (j : Nat) : (s.setTariff i v).report j = s.report j := rfl
@[simp] theorem setTariff_rack (i : Nat) (v : Tariff) (x : Rack) : (s.setTariff i v).rack x = s.rack x := rfl
@[simp] theorem setTariff_buffer (i : Nat) (v : Tariff) (x : Rack) : (s.setTariff i v).buffer x = s.buffer x := rfl
@[simp] theorem setTariff_now (i : Nat) (v : Tariff) : (s.setTariff i v).now = s.now := rfl
@[simp] theorem setTariff_bySerial (i : Nat) (v : Tariff) (x : Nat) : (s.setTariff i v).bySerial x = s.bySerial x := rfl
@[simp] theorem setTariff_openAccount (i : Nat) (v : Tariff) (x : AccountRef) : (s.setTariff i v).openAccount x = s.openAccount x := rfl
@[simp] theorem setTariff_slot (i : Nat) (v : Tariff) (x : Rack) (k : Nat) : (s.setTariff i v).slot x k = s.slot x k := rfl
@[simp] theorem setTariff_rackFitted (i : Nat) (v : Tariff) (x : Rack) : (s.setTariff i v).rackFitted x = s.rackFitted x := rfl
@[simp] theorem setTariff_boothFitted (i : Nat) (v : Tariff) (x : Nat) : (s.setTariff i v).boothFitted x = s.boothFitted x := rfl

-- dropReservation

@[simp] theorem dropReservation_pending (p : Port) : (s.dropReservation p).pending = s.pending := by cases p <;> rfl
@[simp] theorem dropReservation_run (p : Port) : (s.dropReservation p).run = s.run := by cases p <;> rfl
@[simp] theorem dropReservation_startKind (p : Port) : (s.dropReservation p).startKind = s.startKind := by cases p <;> rfl
@[simp] theorem dropReservation_marker (p : Port) : (s.dropReservation p).marker = s.marker := by cases p <;> rfl
@[simp] theorem dropReservation_languages (p : Port) : (s.dropReservation p).languages = s.languages := by cases p <;> rfl
@[simp] theorem dropReservation_channels (p : Port) : (s.dropReservation p).channels = s.channels := by cases p <;> rfl
@[simp] theorem dropReservation_booths (p : Port) : (s.dropReservation p).booths = s.booths := by cases p <;> rfl
@[simp] theorem dropReservation_receivers (p : Port) : (s.dropReservation p).receivers = s.receivers := by cases p <;> rfl
@[simp] theorem dropReservation_accounts (p : Port) : (s.dropReservation p).accounts = s.accounts := by cases p <;> rfl
@[simp] theorem dropReservation_tariffs (p : Port) : (s.dropReservation p).tariffs = s.tariffs := by cases p <;> rfl
@[simp] theorem dropReservation_filters (p : Port) : (s.dropReservation p).filters = s.filters := by cases p <;> rfl
@[simp] theorem dropReservation_bufferA (p : Port) : (s.dropReservation p).bufferA = s.bufferA := by cases p <;> rfl
@[simp] theorem dropReservation_bufferB (p : Port) : (s.dropReservation p).bufferB = s.bufferB := by cases p <;> rfl
@[simp] theorem dropReservation_reports (p : Port) : (s.dropReservation p).reports = s.reports := by cases p <;> rfl
@[simp] theorem dropReservation_minute (p : Port) : (s.dropReservation p).minute = s.minute := by cases p <;> rfl
@[simp] theorem dropReservation_day (p : Port) : (s.dropReservation p).day = s.day := by cases p <;> rfl
@[simp] theorem dropReservation_suspect (p : Port) : (s.dropReservation p).suspect = s.suspect := by cases p <;> rfl
@[simp] theorem dropReservation_second (p : Port) : (s.dropReservation p).second = s.second := by cases p <;> rfl
@[simp] theorem dropReservation_rackA (p : Port) : (s.dropReservation p).rackA = s.rackA := by cases p <;> rfl
@[simp] theorem dropReservation_rackB (p : Port) : (s.dropReservation p).rackB = s.rackB := by cases p <;> rfl
@[simp] theorem dropReservation_feed (p : Port) : (s.dropReservation p).feed = s.feed := by cases p <;> rfl
@[simp] theorem dropReservation_line (p : Port) : (s.dropReservation p).line = s.line := by cases p <;> rfl
@[simp] theorem dropReservation_profile (p : Port) : (s.dropReservation p).profile = s.profile := by cases p <;> rfl
@[simp] theorem dropReservation_clamped (p : Port) : (s.dropReservation p).clamped = s.clamped := by cases p <;> rfl
@[simp] theorem dropReservation_store (p : Port) : (s.dropReservation p).store = s.store := by cases p <;> rfl
@[simp] theorem dropReservation_storeFailure (p : Port) : (s.dropReservation p).storeFailure = s.storeFailure := by cases p <;> rfl
@[simp] theorem dropReservation_freeCount (p : Port) : (s.dropReservation p).freeCount = s.freeCount := by cases p <;> rfl
@[simp] theorem dropReservation_language (p : Port) (j : Nat) : (s.dropReservation p).language j = s.language j := by cases p <;> rfl
@[simp] theorem dropReservation_channel (p : Port) (j : Nat) : (s.dropReservation p).channel j = s.channel j := by cases p <;> rfl
@[simp] theorem dropReservation_booth (p : Port) (j : Nat) : (s.dropReservation p).booth j = s.booth j := by cases p <;> rfl
@[simp] theorem dropReservation_receiver (p : Port) (j : Nat) : (s.dropReservation p).receiver j = s.receiver j := by cases p <;> rfl
@[simp] theorem dropReservation_account (p : Port) (j : Nat) : (s.dropReservation p).account j = s.account j := by cases p <;> rfl
@[simp] theorem dropReservation_tariff (p : Port) (j : Nat) : (s.dropReservation p).tariff j = s.tariff j := by cases p <;> rfl
@[simp] theorem dropReservation_filter (p : Port) (j : Nat) : (s.dropReservation p).filter j = s.filter j := by cases p <;> rfl
@[simp] theorem dropReservation_report (p : Port) (j : Nat) : (s.dropReservation p).report j = s.report j := by cases p <;> rfl
@[simp] theorem dropReservation_rack (p : Port) (x : Rack) : (s.dropReservation p).rack x = s.rack x := by cases p <;> rfl
@[simp] theorem dropReservation_buffer (p : Port) (x : Rack) : (s.dropReservation p).buffer x = s.buffer x := by cases p <;> rfl
@[simp] theorem dropReservation_now (p : Port) : (s.dropReservation p).now = s.now := by cases p <;> rfl
@[simp] theorem dropReservation_bySerial (p : Port) (x : Nat) : (s.dropReservation p).bySerial x = s.bySerial x := by cases p <;> rfl
@[simp] theorem dropReservation_openAccount (p : Port) (x : AccountRef) : (s.dropReservation p).openAccount x = s.openAccount x := by cases p <;> rfl
@[simp] theorem dropReservation_slot (p : Port) (x : Rack) (k : Nat) : (s.dropReservation p).slot x k = s.slot x k := by cases p <;> rfl
@[simp] theorem dropReservation_rackFitted (p : Port) (x : Rack) : (s.dropReservation p).rackFitted x = s.rackFitted x := by cases p <;> rfl
@[simp] theorem dropReservation_boothFitted (p : Port) (x : Nat) : (s.dropReservation p).boothFitted x = s.boothFitted x := by cases p <;> rfl

-- consume

@[simp] theorem consume_pending (c : Bool) (p : Port) : (s.consume c p).pending = s.pending := by cases c <;> cases p <;> rfl
@[simp] theorem consume_run (c : Bool) (p : Port) : (s.consume c p).run = s.run := by cases c <;> cases p <;> rfl
@[simp] theorem consume_startKind (c : Bool) (p : Port) : (s.consume c p).startKind = s.startKind := by cases c <;> cases p <;> rfl
@[simp] theorem consume_marker (c : Bool) (p : Port) : (s.consume c p).marker = s.marker := by cases c <;> cases p <;> rfl
@[simp] theorem consume_languages (c : Bool) (p : Port) : (s.consume c p).languages = s.languages := by cases c <;> cases p <;> rfl
@[simp] theorem consume_channels (c : Bool) (p : Port) : (s.consume c p).channels = s.channels := by cases c <;> cases p <;> rfl
@[simp] theorem consume_booths (c : Bool) (p : Port) : (s.consume c p).booths = s.booths := by cases c <;> cases p <;> rfl
@[simp] theorem consume_receivers (c : Bool) (p : Port) : (s.consume c p).receivers = s.receivers := by cases c <;> cases p <;> rfl
@[simp] theorem consume_accounts (c : Bool) (p : Port) : (s.consume c p).accounts = s.accounts := by cases c <;> cases p <;> rfl
@[simp] theorem consume_tariffs (c : Bool) (p : Port) : (s.consume c p).tariffs = s.tariffs := by cases c <;> cases p <;> rfl
@[simp] theorem consume_filters (c : Bool) (p : Port) : (s.consume c p).filters = s.filters := by cases c <;> cases p <;> rfl
@[simp] theorem consume_bufferA (c : Bool) (p : Port) : (s.consume c p).bufferA = s.bufferA := by cases c <;> cases p <;> rfl
@[simp] theorem consume_bufferB (c : Bool) (p : Port) : (s.consume c p).bufferB = s.bufferB := by cases c <;> cases p <;> rfl
@[simp] theorem consume_reports (c : Bool) (p : Port) : (s.consume c p).reports = s.reports := by cases c <;> cases p <;> rfl
@[simp] theorem consume_minute (c : Bool) (p : Port) : (s.consume c p).minute = s.minute := by cases c <;> cases p <;> rfl
@[simp] theorem consume_day (c : Bool) (p : Port) : (s.consume c p).day = s.day := by cases c <;> cases p <;> rfl
@[simp] theorem consume_suspect (c : Bool) (p : Port) : (s.consume c p).suspect = s.suspect := by cases c <;> cases p <;> rfl
@[simp] theorem consume_second (c : Bool) (p : Port) : (s.consume c p).second = s.second := by cases c <;> cases p <;> rfl
@[simp] theorem consume_rackA (c : Bool) (p : Port) : (s.consume c p).rackA = s.rackA := by cases c <;> cases p <;> rfl
@[simp] theorem consume_rackB (c : Bool) (p : Port) : (s.consume c p).rackB = s.rackB := by cases c <;> cases p <;> rfl
@[simp] theorem consume_feed (c : Bool) (p : Port) : (s.consume c p).feed = s.feed := by cases c <;> cases p <;> rfl
@[simp] theorem consume_line (c : Bool) (p : Port) : (s.consume c p).line = s.line := by cases c <;> cases p <;> rfl
@[simp] theorem consume_profile (c : Bool) (p : Port) : (s.consume c p).profile = s.profile := by cases c <;> cases p <;> rfl
@[simp] theorem consume_clamped (c : Bool) (p : Port) : (s.consume c p).clamped = s.clamped := by cases c <;> cases p <;> rfl
@[simp] theorem consume_store (c : Bool) (p : Port) : (s.consume c p).store = s.store := by cases c <;> cases p <;> rfl
@[simp] theorem consume_storeFailure (c : Bool) (p : Port) : (s.consume c p).storeFailure = s.storeFailure := by cases c <;> cases p <;> rfl
@[simp] theorem consume_freeCount (c : Bool) (p : Port) : (s.consume c p).freeCount = s.freeCount := by cases c <;> cases p <;> rfl
@[simp] theorem consume_language (c : Bool) (p : Port) (j : Nat) : (s.consume c p).language j = s.language j := by cases c <;> cases p <;> rfl
@[simp] theorem consume_channel (c : Bool) (p : Port) (j : Nat) : (s.consume c p).channel j = s.channel j := by cases c <;> cases p <;> rfl
@[simp] theorem consume_booth (c : Bool) (p : Port) (j : Nat) : (s.consume c p).booth j = s.booth j := by cases c <;> cases p <;> rfl
@[simp] theorem consume_receiver (c : Bool) (p : Port) (j : Nat) : (s.consume c p).receiver j = s.receiver j := by cases c <;> cases p <;> rfl
@[simp] theorem consume_account (c : Bool) (p : Port) (j : Nat) : (s.consume c p).account j = s.account j := by cases c <;> cases p <;> rfl
@[simp] theorem consume_tariff (c : Bool) (p : Port) (j : Nat) : (s.consume c p).tariff j = s.tariff j := by cases c <;> cases p <;> rfl
@[simp] theorem consume_filter (c : Bool) (p : Port) (j : Nat) : (s.consume c p).filter j = s.filter j := by cases c <;> cases p <;> rfl
@[simp] theorem consume_report (c : Bool) (p : Port) (j : Nat) : (s.consume c p).report j = s.report j := by cases c <;> cases p <;> rfl
@[simp] theorem consume_rack (c : Bool) (p : Port) (x : Rack) : (s.consume c p).rack x = s.rack x := by cases c <;> cases p <;> rfl
@[simp] theorem consume_buffer (c : Bool) (p : Port) (x : Rack) : (s.consume c p).buffer x = s.buffer x := by cases c <;> cases p <;> rfl
@[simp] theorem consume_now (c : Bool) (p : Port) : (s.consume c p).now = s.now := by cases c <;> cases p <;> rfl
@[simp] theorem consume_bySerial (c : Bool) (p : Port) (x : Nat) : (s.consume c p).bySerial x = s.bySerial x := by cases c <;> cases p <;> rfl
@[simp] theorem consume_openAccount (c : Bool) (p : Port) (x : AccountRef) : (s.consume c p).openAccount x = s.openAccount x := by cases c <;> cases p <;> rfl
@[simp] theorem consume_slot (c : Bool) (p : Port) (x : Rack) (k : Nat) : (s.consume c p).slot x k = s.slot x k := by cases c <;> cases p <;> rfl
@[simp] theorem consume_rackFitted (c : Bool) (p : Port) (x : Rack) : (s.consume c p).rackFitted x = s.rackFitted x := by cases c <;> cases p <;> rfl
@[simp] theorem consume_boothFitted (c : Bool) (p : Port) (x : Nat) : (s.consume c p).boothFitted x = s.boothFitted x := by cases c <;> cases p <;> rfl

-- notify

@[simp] theorem notify_pending (p : Port) (n : Notice) : (s.notify p n).pending = s.pending := by cases p <;> rfl
@[simp] theorem notify_run (p : Port) (n : Notice) : (s.notify p n).run = s.run := by cases p <;> rfl
@[simp] theorem notify_startKind (p : Port) (n : Notice) : (s.notify p n).startKind = s.startKind := by cases p <;> rfl
@[simp] theorem notify_marker (p : Port) (n : Notice) : (s.notify p n).marker = s.marker := by cases p <;> rfl
@[simp] theorem notify_languages (p : Port) (n : Notice) : (s.notify p n).languages = s.languages := by cases p <;> rfl
@[simp] theorem notify_channels (p : Port) (n : Notice) : (s.notify p n).channels = s.channels := by cases p <;> rfl
@[simp] theorem notify_booths (p : Port) (n : Notice) : (s.notify p n).booths = s.booths := by cases p <;> rfl
@[simp] theorem notify_receivers (p : Port) (n : Notice) : (s.notify p n).receivers = s.receivers := by cases p <;> rfl
@[simp] theorem notify_accounts (p : Port) (n : Notice) : (s.notify p n).accounts = s.accounts := by cases p <;> rfl
@[simp] theorem notify_tariffs (p : Port) (n : Notice) : (s.notify p n).tariffs = s.tariffs := by cases p <;> rfl
@[simp] theorem notify_filters (p : Port) (n : Notice) : (s.notify p n).filters = s.filters := by cases p <;> rfl
@[simp] theorem notify_bufferA (p : Port) (n : Notice) : (s.notify p n).bufferA = s.bufferA := by cases p <;> rfl
@[simp] theorem notify_bufferB (p : Port) (n : Notice) : (s.notify p n).bufferB = s.bufferB := by cases p <;> rfl
@[simp] theorem notify_reports (p : Port) (n : Notice) : (s.notify p n).reports = s.reports := by cases p <;> rfl
@[simp] theorem notify_minute (p : Port) (n : Notice) : (s.notify p n).minute = s.minute := by cases p <;> rfl
@[simp] theorem notify_day (p : Port) (n : Notice) : (s.notify p n).day = s.day := by cases p <;> rfl
@[simp] theorem notify_suspect (p : Port) (n : Notice) : (s.notify p n).suspect = s.suspect := by cases p <;> rfl
@[simp] theorem notify_second (p : Port) (n : Notice) : (s.notify p n).second = s.second := by cases p <;> rfl
@[simp] theorem notify_rackA (p : Port) (n : Notice) : (s.notify p n).rackA = s.rackA := by cases p <;> rfl
@[simp] theorem notify_rackB (p : Port) (n : Notice) : (s.notify p n).rackB = s.rackB := by cases p <;> rfl
@[simp] theorem notify_feed (p : Port) (n : Notice) : (s.notify p n).feed = s.feed := by cases p <;> rfl
@[simp] theorem notify_line (p : Port) (n : Notice) : (s.notify p n).line = s.line := by cases p <;> rfl
@[simp] theorem notify_profile (p : Port) (n : Notice) : (s.notify p n).profile = s.profile := by cases p <;> rfl
@[simp] theorem notify_clamped (p : Port) (n : Notice) : (s.notify p n).clamped = s.clamped := by cases p <;> rfl
@[simp] theorem notify_store (p : Port) (n : Notice) : (s.notify p n).store = s.store := by cases p <;> rfl
@[simp] theorem notify_storeFailure (p : Port) (n : Notice) : (s.notify p n).storeFailure = s.storeFailure := by cases p <;> rfl
@[simp] theorem notify_freeCount (p : Port) (n : Notice) : (s.notify p n).freeCount = s.freeCount := by cases p <;> rfl
@[simp] theorem notify_language (p : Port) (n : Notice) (j : Nat) : (s.notify p n).language j = s.language j := by cases p <;> rfl
@[simp] theorem notify_channel (p : Port) (n : Notice) (j : Nat) : (s.notify p n).channel j = s.channel j := by cases p <;> rfl
@[simp] theorem notify_booth (p : Port) (n : Notice) (j : Nat) : (s.notify p n).booth j = s.booth j := by cases p <;> rfl
@[simp] theorem notify_receiver (p : Port) (n : Notice) (j : Nat) : (s.notify p n).receiver j = s.receiver j := by cases p <;> rfl
@[simp] theorem notify_account (p : Port) (n : Notice) (j : Nat) : (s.notify p n).account j = s.account j := by cases p <;> rfl
@[simp] theorem notify_tariff (p : Port) (n : Notice) (j : Nat) : (s.notify p n).tariff j = s.tariff j := by cases p <;> rfl
@[simp] theorem notify_filter (p : Port) (n : Notice) (j : Nat) : (s.notify p n).filter j = s.filter j := by cases p <;> rfl
@[simp] theorem notify_report (p : Port) (n : Notice) (j : Nat) : (s.notify p n).report j = s.report j := by cases p <;> rfl
@[simp] theorem notify_rack (p : Port) (n : Notice) (x : Rack) : (s.notify p n).rack x = s.rack x := by cases p <;> rfl
@[simp] theorem notify_buffer (p : Port) (n : Notice) (x : Rack) : (s.notify p n).buffer x = s.buffer x := by cases p <;> rfl
@[simp] theorem notify_now (p : Port) (n : Notice) : (s.notify p n).now = s.now := by cases p <;> rfl
@[simp] theorem notify_bySerial (p : Port) (n : Notice) (x : Nat) : (s.notify p n).bySerial x = s.bySerial x := by cases p <;> rfl
@[simp] theorem notify_openAccount (p : Port) (n : Notice) (x : AccountRef) : (s.notify p n).openAccount x = s.openAccount x := by cases p <;> rfl
@[simp] theorem notify_slot (p : Port) (n : Notice) (x : Rack) (k : Nat) : (s.notify p n).slot x k = s.slot x k := by cases p <;> rfl
@[simp] theorem notify_rackFitted (p : Port) (n : Notice) (x : Rack) : (s.notify p n).rackFitted x = s.rackFitted x := by cases p <;> rfl
@[simp] theorem notify_boothFitted (p : Port) (n : Notice) (x : Nat) : (s.notify p n).boothFitted x = s.boothFitted x := by cases p <;> rfl

-- feedWork

@[simp] theorem feedWork_pending : (s.feedWork).pending = s.pending := by unfold State.feedWork; dsimp only; split; (split <;> rfl); rfl
@[simp] theorem feedWork_run : (s.feedWork).run = s.run := by unfold State.feedWork; dsimp only; split; (split <;> rfl); rfl
@[simp] theorem feedWork_startKind : (s.feedWork).startKind = s.startKind := by unfold State.feedWork; dsimp only; split; (split <;> rfl); rfl
@[simp] theorem feedWork_marker : (s.feedWork).marker = s.marker := by unfold State.feedWork; dsimp only; split; (split <;> rfl); rfl
@[simp] theorem feedWork_languages : (s.feedWork).languages = s.languages := by unfold State.feedWork; dsimp only; split; (split <;> rfl); rfl
@[simp] theorem feedWork_channels : (s.feedWork).channels = s.channels := by unfold State.feedWork; dsimp only; split; (split <;> rfl); rfl
@[simp] theorem feedWork_booths : (s.feedWork).booths = s.booths := by unfold State.feedWork; dsimp only; split; (split <;> rfl); rfl
@[simp] theorem feedWork_receivers : (s.feedWork).receivers = s.receivers := by unfold State.feedWork; dsimp only; split; (split <;> rfl); rfl
@[simp] theorem feedWork_accounts : (s.feedWork).accounts = s.accounts := by unfold State.feedWork; dsimp only; split; (split <;> rfl); rfl
@[simp] theorem feedWork_tariffs : (s.feedWork).tariffs = s.tariffs := by unfold State.feedWork; dsimp only; split; (split <;> rfl); rfl
@[simp] theorem feedWork_filters : (s.feedWork).filters = s.filters := by unfold State.feedWork; dsimp only; split; (split <;> rfl); rfl
@[simp] theorem feedWork_bufferA : (s.feedWork).bufferA = s.bufferA := by unfold State.feedWork; dsimp only; split; (split <;> rfl); rfl
@[simp] theorem feedWork_bufferB : (s.feedWork).bufferB = s.bufferB := by unfold State.feedWork; dsimp only; split; (split <;> rfl); rfl
@[simp] theorem feedWork_reports : (s.feedWork).reports = s.reports := by unfold State.feedWork; dsimp only; split; (split <;> rfl); rfl
@[simp] theorem feedWork_minute : (s.feedWork).minute = s.minute := by unfold State.feedWork; dsimp only; split; (split <;> rfl); rfl
@[simp] theorem feedWork_day : (s.feedWork).day = s.day := by unfold State.feedWork; dsimp only; split; (split <;> rfl); rfl
@[simp] theorem feedWork_suspect : (s.feedWork).suspect = s.suspect := by unfold State.feedWork; dsimp only; split; (split <;> rfl); rfl
@[simp] theorem feedWork_second : (s.feedWork).second = s.second := by unfold State.feedWork; dsimp only; split; (split <;> rfl); rfl
@[simp] theorem feedWork_rackA : (s.feedWork).rackA = s.rackA := by unfold State.feedWork; dsimp only; split; (split <;> rfl); rfl
@[simp] theorem feedWork_rackB : (s.feedWork).rackB = s.rackB := by unfold State.feedWork; dsimp only; split; (split <;> rfl); rfl
@[simp] theorem feedWork_opsPort : (s.feedWork).opsPort = s.opsPort := by unfold State.feedWork; dsimp only; split; (split <;> rfl); rfl
@[simp] theorem feedWork_deskAPort : (s.feedWork).deskAPort = s.deskAPort := by unfold State.feedWork; dsimp only; split; (split <;> rfl); rfl
@[simp] theorem feedWork_deskBPort : (s.feedWork).deskBPort = s.deskBPort := by unfold State.feedWork; dsimp only; split; (split <;> rfl); rfl
@[simp] theorem feedWork_line : (s.feedWork).line = s.line := by unfold State.feedWork; dsimp only; split; (split <;> rfl); rfl
@[simp] theorem feedWork_profile : (s.feedWork).profile = s.profile := by unfold State.feedWork; dsimp only; split; (split <;> rfl); rfl
@[simp] theorem feedWork_clamped : (s.feedWork).clamped = s.clamped := by unfold State.feedWork; dsimp only; split; (split <;> rfl); rfl
@[simp] theorem feedWork_store : (s.feedWork).store = s.store := by unfold State.feedWork; dsimp only; split; (split <;> rfl); rfl
@[simp] theorem feedWork_storeFailure : (s.feedWork).storeFailure = s.storeFailure := by unfold State.feedWork; dsimp only; split; (split <;> rfl); rfl
@[simp] theorem feedWork_freeCount : (s.feedWork).freeCount = s.freeCount := by unfold State.feedWork; dsimp only; split; (split <;> rfl); rfl
@[simp] theorem feedWork_language (j : Nat) : (s.feedWork).language j = s.language j := by unfold State.feedWork; dsimp only; split; (split <;> rfl); rfl
@[simp] theorem feedWork_channel (j : Nat) : (s.feedWork).channel j = s.channel j := by unfold State.feedWork; dsimp only; split; (split <;> rfl); rfl
@[simp] theorem feedWork_booth (j : Nat) : (s.feedWork).booth j = s.booth j := by unfold State.feedWork; dsimp only; split; (split <;> rfl); rfl
@[simp] theorem feedWork_receiver (j : Nat) : (s.feedWork).receiver j = s.receiver j := by unfold State.feedWork; dsimp only; split; (split <;> rfl); rfl
@[simp] theorem feedWork_account (j : Nat) : (s.feedWork).account j = s.account j := by unfold State.feedWork; dsimp only; split; (split <;> rfl); rfl
@[simp] theorem feedWork_tariff (j : Nat) : (s.feedWork).tariff j = s.tariff j := by unfold State.feedWork; dsimp only; split; (split <;> rfl); rfl
@[simp] theorem feedWork_filter (j : Nat) : (s.feedWork).filter j = s.filter j := by unfold State.feedWork; dsimp only; split; (split <;> rfl); rfl
@[simp] theorem feedWork_report (j : Nat) : (s.feedWork).report j = s.report j := by unfold State.feedWork; dsimp only; split; (split <;> rfl); rfl
@[simp] theorem feedWork_rack (x : Rack) : (s.feedWork).rack x = s.rack x := by unfold State.feedWork; dsimp only; split; (split <;> rfl); rfl
@[simp] theorem feedWork_buffer (x : Rack) : (s.feedWork).buffer x = s.buffer x := by unfold State.feedWork; dsimp only; split; (split <;> rfl); rfl
@[simp] theorem feedWork_port (x : Port) : (s.feedWork).port x = s.port x := by unfold State.feedWork; dsimp only; split; (split <;> rfl); rfl
@[simp] theorem feedWork_now : (s.feedWork).now = s.now := by unfold State.feedWork; dsimp only; split; (split <;> rfl); rfl
@[simp] theorem feedWork_bySerial (x : Nat) : (s.feedWork).bySerial x = s.bySerial x := by unfold State.feedWork; dsimp only; split; (split <;> rfl); rfl
@[simp] theorem feedWork_openAccount (x : AccountRef) : (s.feedWork).openAccount x = s.openAccount x := by unfold State.feedWork; dsimp only; split; (split <;> rfl); rfl
@[simp] theorem feedWork_slot (x : Rack) (k : Nat) : (s.feedWork).slot x k = s.slot x k := by unfold State.feedWork; dsimp only; split; (split <;> rfl); rfl
@[simp] theorem feedWork_rackFitted (x : Rack) : (s.feedWork).rackFitted x = s.rackFitted x := by unfold State.feedWork; dsimp only; split; (split <;> rfl); rfl
@[simp] theorem feedWork_boothFitted (x : Nat) : (s.feedWork).boothFitted x = s.boothFitted x := by unfold State.feedWork; dsimp only; split; (split <;> rfl); rfl

-- setSlot

@[simp] theorem setSlot_pending (r : Rack) (n : Nat) (v : Slot) : (s.setSlot r n v).pending = s.pending := by cases r <;> rfl
@[simp] theorem setSlot_run (r : Rack) (n : Nat) (v : Slot) : (s.setSlot r n v).run = s.run := by cases r <;> rfl
@[simp] theorem setSlot_startKind (r : Rack) (n : Nat) (v : Slot) : (s.setSlot r n v).startKind = s.startKind := by cases r <;> rfl
@[simp] theorem setSlot_marker (r : Rack) (n : Nat) (v : Slot) : (s.setSlot r n v).marker = s.marker := by cases r <;> rfl
@[simp] theorem setSlot_languages (r : Rack) (n : Nat) (v : Slot) : (s.setSlot r n v).languages = s.languages := by cases r <;> rfl
@[simp] theorem setSlot_channels (r : Rack) (n : Nat) (v : Slot) : (s.setSlot r n v).channels = s.channels := by cases r <;> rfl
@[simp] theorem setSlot_booths (r : Rack) (n : Nat) (v : Slot) : (s.setSlot r n v).booths = s.booths := by cases r <;> rfl
@[simp] theorem setSlot_receivers (r : Rack) (n : Nat) (v : Slot) : (s.setSlot r n v).receivers = s.receivers := by cases r <;> rfl
@[simp] theorem setSlot_accounts (r : Rack) (n : Nat) (v : Slot) : (s.setSlot r n v).accounts = s.accounts := by cases r <;> rfl
@[simp] theorem setSlot_tariffs (r : Rack) (n : Nat) (v : Slot) : (s.setSlot r n v).tariffs = s.tariffs := by cases r <;> rfl
@[simp] theorem setSlot_filters (r : Rack) (n : Nat) (v : Slot) : (s.setSlot r n v).filters = s.filters := by cases r <;> rfl
@[simp] theorem setSlot_bufferA (r : Rack) (n : Nat) (v : Slot) : (s.setSlot r n v).bufferA = s.bufferA := by cases r <;> rfl
@[simp] theorem setSlot_bufferB (r : Rack) (n : Nat) (v : Slot) : (s.setSlot r n v).bufferB = s.bufferB := by cases r <;> rfl
@[simp] theorem setSlot_reports (r : Rack) (n : Nat) (v : Slot) : (s.setSlot r n v).reports = s.reports := by cases r <;> rfl
@[simp] theorem setSlot_minute (r : Rack) (n : Nat) (v : Slot) : (s.setSlot r n v).minute = s.minute := by cases r <;> rfl
@[simp] theorem setSlot_day (r : Rack) (n : Nat) (v : Slot) : (s.setSlot r n v).day = s.day := by cases r <;> rfl
@[simp] theorem setSlot_suspect (r : Rack) (n : Nat) (v : Slot) : (s.setSlot r n v).suspect = s.suspect := by cases r <;> rfl
@[simp] theorem setSlot_second (r : Rack) (n : Nat) (v : Slot) : (s.setSlot r n v).second = s.second := by cases r <;> rfl
@[simp] theorem setSlot_opsPort (r : Rack) (n : Nat) (v : Slot) : (s.setSlot r n v).opsPort = s.opsPort := by cases r <;> rfl
@[simp] theorem setSlot_deskAPort (r : Rack) (n : Nat) (v : Slot) : (s.setSlot r n v).deskAPort = s.deskAPort := by cases r <;> rfl
@[simp] theorem setSlot_deskBPort (r : Rack) (n : Nat) (v : Slot) : (s.setSlot r n v).deskBPort = s.deskBPort := by cases r <;> rfl
@[simp] theorem setSlot_feed (r : Rack) (n : Nat) (v : Slot) : (s.setSlot r n v).feed = s.feed := by cases r <;> rfl
@[simp] theorem setSlot_line (r : Rack) (n : Nat) (v : Slot) : (s.setSlot r n v).line = s.line := by cases r <;> rfl
@[simp] theorem setSlot_profile (r : Rack) (n : Nat) (v : Slot) : (s.setSlot r n v).profile = s.profile := by cases r <;> rfl
@[simp] theorem setSlot_clamped (r : Rack) (n : Nat) (v : Slot) : (s.setSlot r n v).clamped = s.clamped := by cases r <;> rfl
@[simp] theorem setSlot_store (r : Rack) (n : Nat) (v : Slot) : (s.setSlot r n v).store = s.store := by cases r <;> rfl
@[simp] theorem setSlot_storeFailure (r : Rack) (n : Nat) (v : Slot) : (s.setSlot r n v).storeFailure = s.storeFailure := by cases r <;> rfl
@[simp] theorem setSlot_freeCount (r : Rack) (n : Nat) (v : Slot) : (s.setSlot r n v).freeCount = s.freeCount := by cases r <;> rfl
@[simp] theorem setSlot_language (r : Rack) (n : Nat) (v : Slot) (j : Nat) : (s.setSlot r n v).language j = s.language j := by cases r <;> rfl
@[simp] theorem setSlot_channel (r : Rack) (n : Nat) (v : Slot) (j : Nat) : (s.setSlot r n v).channel j = s.channel j := by cases r <;> rfl
@[simp] theorem setSlot_booth (r : Rack) (n : Nat) (v : Slot) (j : Nat) : (s.setSlot r n v).booth j = s.booth j := by cases r <;> rfl
@[simp] theorem setSlot_receiver (r : Rack) (n : Nat) (v : Slot) (j : Nat) : (s.setSlot r n v).receiver j = s.receiver j := by cases r <;> rfl
@[simp] theorem setSlot_account (r : Rack) (n : Nat) (v : Slot) (j : Nat) : (s.setSlot r n v).account j = s.account j := by cases r <;> rfl
@[simp] theorem setSlot_tariff (r : Rack) (n : Nat) (v : Slot) (j : Nat) : (s.setSlot r n v).tariff j = s.tariff j := by cases r <;> rfl
@[simp] theorem setSlot_filter (r : Rack) (n : Nat) (v : Slot) (j : Nat) : (s.setSlot r n v).filter j = s.filter j := by cases r <;> rfl
@[simp] theorem setSlot_report (r : Rack) (n : Nat) (v : Slot) (j : Nat) : (s.setSlot r n v).report j = s.report j := by cases r <;> rfl
@[simp] theorem setSlot_buffer (r : Rack) (n : Nat) (v : Slot) (x : Rack) : (s.setSlot r n v).buffer x = s.buffer x := by cases r <;> rfl
@[simp] theorem setSlot_port (r : Rack) (n : Nat) (v : Slot) (x : Port) : (s.setSlot r n v).port x = s.port x := by cases r <;> rfl
@[simp] theorem setSlot_now (r : Rack) (n : Nat) (v : Slot) : (s.setSlot r n v).now = s.now := by cases r <;> rfl
@[simp] theorem setSlot_bySerial (r : Rack) (n : Nat) (v : Slot) (x : Nat) : (s.setSlot r n v).bySerial x = s.bySerial x := by cases r <;> rfl
@[simp] theorem setSlot_openAccount (r : Rack) (n : Nat) (v : Slot) (x : AccountRef) : (s.setSlot r n v).openAccount x = s.openAccount x := by cases r <;> rfl
@[simp] theorem setSlot_rackFitted (r : Rack) (n : Nat) (v : Slot) (x : Rack) : (s.setSlot r n v).rackFitted x = s.rackFitted x := by cases r <;> rfl
@[simp] theorem setSlot_boothFitted (r : Rack) (n : Nat) (v : Slot) (x : Nat) : (s.setSlot r n v).boothFitted x = s.boothFitted x := by cases r <;> rfl

-- setBus

@[simp] theorem setBus_pending (r : Rack) (b : Bus) : (s.setBus r b).pending = s.pending := by cases r <;> rfl
@[simp] theorem setBus_run (r : Rack) (b : Bus) : (s.setBus r b).run = s.run := by cases r <;> rfl
@[simp] theorem setBus_startKind (r : Rack) (b : Bus) : (s.setBus r b).startKind = s.startKind := by cases r <;> rfl
@[simp] theorem setBus_marker (r : Rack) (b : Bus) : (s.setBus r b).marker = s.marker := by cases r <;> rfl
@[simp] theorem setBus_languages (r : Rack) (b : Bus) : (s.setBus r b).languages = s.languages := by cases r <;> rfl
@[simp] theorem setBus_channels (r : Rack) (b : Bus) : (s.setBus r b).channels = s.channels := by cases r <;> rfl
@[simp] theorem setBus_booths (r : Rack) (b : Bus) : (s.setBus r b).booths = s.booths := by cases r <;> rfl
@[simp] theorem setBus_receivers (r : Rack) (b : Bus) : (s.setBus r b).receivers = s.receivers := by cases r <;> rfl
@[simp] theorem setBus_accounts (r : Rack) (b : Bus) : (s.setBus r b).accounts = s.accounts := by cases r <;> rfl
@[simp] theorem setBus_tariffs (r : Rack) (b : Bus) : (s.setBus r b).tariffs = s.tariffs := by cases r <;> rfl
@[simp] theorem setBus_filters (r : Rack) (b : Bus) : (s.setBus r b).filters = s.filters := by cases r <;> rfl
@[simp] theorem setBus_bufferA (r : Rack) (b : Bus) : (s.setBus r b).bufferA = s.bufferA := by cases r <;> rfl
@[simp] theorem setBus_bufferB (r : Rack) (b : Bus) : (s.setBus r b).bufferB = s.bufferB := by cases r <;> rfl
@[simp] theorem setBus_reports (r : Rack) (b : Bus) : (s.setBus r b).reports = s.reports := by cases r <;> rfl
@[simp] theorem setBus_minute (r : Rack) (b : Bus) : (s.setBus r b).minute = s.minute := by cases r <;> rfl
@[simp] theorem setBus_day (r : Rack) (b : Bus) : (s.setBus r b).day = s.day := by cases r <;> rfl
@[simp] theorem setBus_suspect (r : Rack) (b : Bus) : (s.setBus r b).suspect = s.suspect := by cases r <;> rfl
@[simp] theorem setBus_second (r : Rack) (b : Bus) : (s.setBus r b).second = s.second := by cases r <;> rfl
@[simp] theorem setBus_opsPort (r : Rack) (b : Bus) : (s.setBus r b).opsPort = s.opsPort := by cases r <;> rfl
@[simp] theorem setBus_deskAPort (r : Rack) (b : Bus) : (s.setBus r b).deskAPort = s.deskAPort := by cases r <;> rfl
@[simp] theorem setBus_deskBPort (r : Rack) (b : Bus) : (s.setBus r b).deskBPort = s.deskBPort := by cases r <;> rfl
@[simp] theorem setBus_feed (r : Rack) (b : Bus) : (s.setBus r b).feed = s.feed := by cases r <;> rfl
@[simp] theorem setBus_line (r : Rack) (b : Bus) : (s.setBus r b).line = s.line := by cases r <;> rfl
@[simp] theorem setBus_profile (r : Rack) (b : Bus) : (s.setBus r b).profile = s.profile := by cases r <;> rfl
@[simp] theorem setBus_clamped (r : Rack) (b : Bus) : (s.setBus r b).clamped = s.clamped := by cases r <;> rfl
@[simp] theorem setBus_store (r : Rack) (b : Bus) : (s.setBus r b).store = s.store := by cases r <;> rfl
@[simp] theorem setBus_storeFailure (r : Rack) (b : Bus) : (s.setBus r b).storeFailure = s.storeFailure := by cases r <;> rfl
@[simp] theorem setBus_freeCount (r : Rack) (b : Bus) : (s.setBus r b).freeCount = s.freeCount := by cases r <;> rfl
@[simp] theorem setBus_language (r : Rack) (b : Bus) (j : Nat) : (s.setBus r b).language j = s.language j := by cases r <;> rfl
@[simp] theorem setBus_channel (r : Rack) (b : Bus) (j : Nat) : (s.setBus r b).channel j = s.channel j := by cases r <;> rfl
@[simp] theorem setBus_booth (r : Rack) (b : Bus) (j : Nat) : (s.setBus r b).booth j = s.booth j := by cases r <;> rfl
@[simp] theorem setBus_receiver (r : Rack) (b : Bus) (j : Nat) : (s.setBus r b).receiver j = s.receiver j := by cases r <;> rfl
@[simp] theorem setBus_account (r : Rack) (b : Bus) (j : Nat) : (s.setBus r b).account j = s.account j := by cases r <;> rfl
@[simp] theorem setBus_tariff (r : Rack) (b : Bus) (j : Nat) : (s.setBus r b).tariff j = s.tariff j := by cases r <;> rfl
@[simp] theorem setBus_filter (r : Rack) (b : Bus) (j : Nat) : (s.setBus r b).filter j = s.filter j := by cases r <;> rfl
@[simp] theorem setBus_report (r : Rack) (b : Bus) (j : Nat) : (s.setBus r b).report j = s.report j := by cases r <;> rfl
@[simp] theorem setBus_buffer (r : Rack) (b : Bus) (x : Rack) : (s.setBus r b).buffer x = s.buffer x := by cases r <;> rfl
@[simp] theorem setBus_port (r : Rack) (b : Bus) (x : Port) : (s.setBus r b).port x = s.port x := by cases r <;> rfl
@[simp] theorem setBus_now (r : Rack) (b : Bus) : (s.setBus r b).now = s.now := by cases r <;> rfl
@[simp] theorem setBus_bySerial (r : Rack) (b : Bus) (x : Nat) : (s.setBus r b).bySerial x = s.bySerial x := by cases r <;> rfl
@[simp] theorem setBus_openAccount (r : Rack) (b : Bus) (x : AccountRef) : (s.setBus r b).openAccount x = s.openAccount x := by cases r <;> rfl
@[simp] theorem setBus_rackFitted (r : Rack) (b : Bus) (x : Rack) : (s.setBus r b).rackFitted x = s.rackFitted x := by cases r <;> rfl
@[simp] theorem setBus_boothFitted (r : Rack) (b : Bus) (x : Nat) : (s.setBus r b).boothFitted x = s.boothFitted x := by cases r <;> rfl

end Sys2Proof.Machine
end

