-- ==== Sys2Proof/Laws/Table.lean ====
section
/-!
SUPPORT. What the operations of numbered tables do: reading after writing, and the canonical form.
-/
namespace Sys2Proof.Machine

variable {α : Type}

theorem tabGet_tabErase (d : α) (t : Tab α) (k j : Nat) :
    tabGet d (tabErase t k) j = if j = k then d else tabGet d t j := by
  induction t with
  | nil => simp [tabErase, tabGet]
  | cons e rest ih =>
    obtain ⟨i, v⟩ := e
    by_cases h : i = k
    · subst h
      simp only [tabErase, if_true, ih, tabGet]
      by_cases hj : j = i
      · simp [hj]
      · simp [hj, Ne.symm hj]
    · simp only [tabErase, if_neg h, tabGet, ih]
      by_cases hj : i = j
      · subst hj; simp [h]
      · simp [hj]

theorem tabGet_tabInsert (d : α) (t : Tab α) (k j : Nat) (v : α) (hk : ∀ e ∈ t, e.1 ≠ k) :
    tabGet d (tabInsert t k v) j = if j = k then v else tabGet d t j := by
  induction t with
  | nil => simp [tabInsert, tabGet, eq_comm]
  | cons e rest ih =>
    obtain ⟨i, w⟩ := e
    have hi : i ≠ k := hk (i, w) (by simp)
    have hr : ∀ e ∈ rest, e.1 ≠ k := fun e he => hk e (by simp [he])
    simp only [tabInsert]
    split
    · simp only [tabGet]
      by_cases hj : j = k
      · simp [hj]
      · simp [hj, Ne.symm hj]
    · simp only [tabGet, ih hr]
      by_cases hj : i = j
      · subst hj; simp [hi]
      · simp [hj]

theorem mem_tabErase {t : Tab α} {k : Nat} {e : Nat × α} (h : e ∈ tabErase t k) : e ∈ t ∧ e.1 ≠ k := by
  induction t with
  | nil => simp [tabErase] at h
  | cons a rest ih =>
    obtain ⟨i, v⟩ := a
    by_cases hi : i = k
    · simp only [tabErase, if_pos hi] at h
      exact ⟨List.mem_cons_of_mem _ (ih h).1, (ih h).2⟩
    · simp only [tabErase, if_neg hi, List.mem_cons] at h
      rcases h with rfl | h
      · exact ⟨by simp, hi⟩
      · exact ⟨List.mem_cons_of_mem _ (ih h).1, (ih h).2⟩

/-- Reading after a write: the record written at its number, every other number as before. -/
theorem tabGet_tabSet [DecidableEq α] (d : α) (t : Tab α) (k j : Nat) (v : α) :
    tabGet d (tabSet d t k v) j = if j = k then v else tabGet d t j := by
  unfold tabSet
  split
  · subst_vars; exact tabGet_tabErase _ _ _ _
  · rw [tabGet_tabInsert _ _ _ _ _ (fun e he => (mem_tabErase he).2), tabGet_tabErase]
    split <;> rfl

@[simp] theorem tabGet_tabSet_same [DecidableEq α] (d : α) (t : Tab α) (k : Nat) (v : α) :
    tabGet d (tabSet d t k v) k = v := by simp [tabGet_tabSet]

theorem tabGet_tabSet_ne [DecidableEq α] (d : α) (t : Tab α) {k j : Nat} (v : α) (h : j ≠ k) :
    tabGet d (tabSet d t k v) j = tabGet d t j := by simp [tabGet_tabSet, h]

-- The canonical form

/-- The canonical form of a table, said of its keys and its entries. -/
def TabCanon (d : α) (t : Tab α) : Prop := (t.map (·.1)).Pairwise (· < ·) ∧ ∀ e ∈ t, e.2 ≠ d

theorem tabRising_iff (k : Nat) (t : Tab α) :
    tabRising k t = true ↔ (∀ e ∈ t, k < e.1) ∧ (t.map (·.1)).Pairwise (· < ·) := by
  induction t generalizing k with
  | nil => simp [tabRising]
  | cons a rest ih =>
    obtain ⟨i, v⟩ := a
    simp only [tabRising, Bool.and_eq_true, decide_eq_true_eq, ih, List.map_cons, List.pairwise_cons,
      List.mem_cons, List.mem_map]
    constructor
    · rintro ⟨hk, h1, h2⟩
      refine ⟨?_, ?_, h2⟩
      · rintro e (rfl | he)
        · exact hk
        · exact lt_trans hk (h1 e he)
      · rintro a ⟨e, he, rfl⟩; exact h1 e he
    · rintro ⟨h1, h2, h3⟩
      exact ⟨h1 _ (Or.inl rfl), fun e he => h2 _ ⟨e, he, rfl⟩, h3⟩

theorem tabWf_iff [DecidableEq α] (d : α) (t : Tab α) : tabWf d t = true ↔ TabCanon d t := by
  cases t with
  | nil => simp [tabWf, TabCanon]
  | cons a rest =>
    obtain ⟨i, v⟩ := a
    simp only [tabWf, Bool.and_eq_true, decide_eq_true_eq, tabRising_iff, List.all_eq_true, TabCanon,
      List.map_cons, List.pairwise_cons, List.mem_cons, List.mem_map, forall_eq_or_imp]
    constructor
    · rintro ⟨⟨hv, h1, h2⟩, h3⟩
      exact ⟨⟨by rintro a ⟨e, he, rfl⟩; exact h1 e he, h2⟩, hv, h3⟩
    · rintro ⟨⟨h1, h2⟩, hv, h3⟩
      exact ⟨⟨hv, fun e he => h1 _ ⟨e, he, rfl⟩, h2⟩, h3⟩

theorem tabErase_sublist (t : Tab α) (k : Nat) : (tabErase t k).Sublist t := by
  induction t with
  | nil => simp [tabErase]
  | cons a rest ih =>
    obtain ⟨i, v⟩ := a
    by_cases h : i = k
    · simp only [tabErase, if_pos h]; exact ih.cons _
    · simp only [tabErase, if_neg h]; exact ih.cons_cons _

theorem TabCanon.erase {d : α} {t : Tab α} (h : TabCanon d t) (k : Nat) : TabCanon d (tabErase t k) :=
  ⟨h.1.sublist ((tabErase_sublist t k).map _), fun e he => h.2 e (mem_tabErase he).1⟩

theorem mem_tabInsert {t : Tab α} {k : Nat} {v : α} {e : Nat × α} (h : e ∈ tabInsert t k v) :
    e = (k, v) ∨ e ∈ t := by
  induction t with
  | nil => simpa [tabInsert] using h
  | cons a rest ih =>
    obtain ⟨i, w⟩ := a
    simp only [tabInsert] at h
    split at h
    · simpa using h
    · rcases List.mem_cons.1 h with rfl | h
      · simp
      · rcases ih h with h | h
        · exact Or.inl h
        · exact Or.inr (List.mem_cons_of_mem _ h)

theorem TabCanon.insert {d : α} {t : Tab α} (h : TabCanon d t) {k : Nat} {v : α} (hv : v ≠ d)
    (hk : ∀ e ∈ t, e.1 ≠ k) : TabCanon d (tabInsert t k v) := by
  refine ⟨?_, fun e he => ?_⟩
  · induction t with
    | nil => simp [tabInsert]
    | cons a rest ih =>
      obtain ⟨i, w⟩ := a
      have hr : TabCanon d rest := ⟨(List.pairwise_cons.1 h.1).2, fun e he => h.2 e (by simp [he])⟩
      have hi : i ≠ k := hk (i, w) (by simp)
      have hlt := (List.pairwise_cons.1 h.1).1
      simp only [tabInsert]
      split
      · rename_i hki
        simp only [List.map_cons, List.pairwise_cons, List.mem_cons, List.mem_map, forall_eq_or_imp]
        refine ⟨⟨hki, ?_⟩, ?_, hr.1⟩
        · rintro a ⟨e, he, rfl⟩
          exact lt_trans hki (hlt _ (List.mem_map_of_mem (f := Prod.fst) he))
        · rintro a ⟨e, he, rfl⟩
          exact hlt _ (List.mem_map_of_mem (f := Prod.fst) he)
      · rename_i hki
        simp only [List.map_cons, List.pairwise_cons, List.mem_map]
        refine ⟨?_, ih hr fun e he => hk e (by simp [he])⟩
        rintro a ⟨e, he, rfl⟩
        rcases mem_tabInsert he with rfl | he
        · omega
        · exact hlt _ (List.mem_map_of_mem (f := Prod.fst) he)
  · rcases mem_tabInsert he with rfl | he
    · exact hv
    · exact h.2 e he

/-- A write keeps the canonical form of a table. -/
theorem tabWf_tabSet [DecidableEq α] (d : α) (t : Tab α) (k : Nat) (v : α) (h : tabWf d t = true) :
    tabWf d (tabSet d t k v) = true := by
  rw [tabWf_iff] at h ⊢
  unfold tabSet
  split
  · exact h.erase k
  · rename_i hv
    exact (h.erase k).insert hv fun e he => (mem_tabErase he).2

/-- A map of a canonical table that keeps every number and keeps records from becoming the default is canonical. -/
theorem tabWf_map [DecidableEq α] (d : α) (t : Tab α) (f : α → α) (hf : ∀ v, v ≠ d → f v ≠ d)
    (h : tabWf d t = true) : tabWf d (t.map fun e => (e.1, f e.2)) = true := by
  rw [tabWf_iff] at h ⊢
  refine ⟨by simpa [List.map_map, Function.comp_def] using h.1, fun e he => ?_⟩
  obtain ⟨a, ha, rfl⟩ := List.mem_map.1 he
  exact hf _ (h.2 a ha)

/-- Reading through a map of a table that sends the default record to itself. -/
theorem tabGet_map (d : α) (t : Tab α) (f : α → α) (hd : f d = d) (k : Nat) :
    tabGet d (t.map fun e => (e.1, f e.2)) k = f (tabGet d t k) := by
  induction t with
  | nil => simp [tabGet, hd]
  | cons a rest ih =>
    obtain ⟨i, v⟩ := a
    simp only [List.map_cons, tabGet, ih]
    split <;> rfl

/-- Two canonical tables that read alike are equal. -/
theorem tab_ext (d : α) {t u : Tab α} (ht : TabCanon d t) (hu : TabCanon d u)
    (h : ∀ k, tabGet d t k = tabGet d u k) : t = u := by
  have low : ∀ {t : Tab α} {k : Nat}, (∀ e ∈ t, k < e.1) → tabGet d t k = d := by
    intro t
    induction t with
    | nil => intro k _; rfl
    | cons a rest ih =>
      intro k hk
      have := hk a (by simp)
      simp only [tabGet]
      rw [if_neg (by omega)]
      exact ih fun e he => hk e (by simp [he])
  have rising : ∀ {a : Nat × α} {rest : Tab α}, TabCanon d (a :: rest) → ∀ e ∈ rest, a.1 < e.1 := by
    intro a rest hc e he
    exact (List.pairwise_cons.1 hc.1).1 _ (List.mem_map_of_mem (f := Prod.fst) he)
  induction t generalizing u with
  | nil =>
    cases u with
    | nil => rfl
    | cons b us =>
      have := h b.1
      simp only [tabGet, if_true] at this
      exact absurd this.symm (hu.2 b (by simp))
  | cons a ts ih =>
    cases u with
    | nil =>
      have := h a.1
      simp only [tabGet, if_true] at this
      exact absurd this (ht.2 a (by simp))
    | cons b us =>
      have hta : TabCanon d ts := ⟨(List.pairwise_cons.1 ht.1).2, fun e he => ht.2 e (by simp [he])⟩
      have hub : TabCanon d us := ⟨(List.pairwise_cons.1 hu.1).2, fun e he => hu.2 e (by simp [he])⟩
      have ra := rising ht
      have rb := rising hu
      have hab : a.1 = b.1 := by
        rcases lt_trichotomy a.1 b.1 with hlt | heq | hlt
        · have := h a.1
          simp only [tabGet, if_true] at this
          rw [if_neg (by omega), low fun e he => lt_trans hlt (rb e he)] at this
          exact absurd this (ht.2 a (by simp))
        · exact heq
        · have := h b.1
          simp only [tabGet, if_true] at this
          rw [if_neg (by omega), low fun e he => lt_trans hlt (ra e he)] at this
          exact absurd this.symm (hu.2 b (by simp))
      have hv : a.2 = b.2 := by
        have := h a.1
        simpa [tabGet, hab] using this
      have hts : ts = us := ih hta hub fun k => by
        have := h k
        by_cases hk : a.1 = k
        · rw [low (t := ts) fun e he => by have := ra e he; omega,
            low (t := us) fun e he => by have := rb e he; omega]
        · simpa only [tabGet, if_neg hk, if_neg (show ¬ b.1 = k by omega)] using this
      obtain ⟨a1, a2⟩ := a
      obtain ⟨b1, b2⟩ := b
      simp only at hab hv
      subst hab hv hts
      rfl

-- Sets

theorem mem_setAdd (k j : Nat) (l : List Nat) : j ∈ setAdd k l ↔ j = k ∨ j ∈ l := by
  induction l with
  | nil => simp [setAdd]
  | cons i rest ih =>
    simp only [setAdd]
    split
    · simp
    · split
      · rename_i h; subst h; simp
      · simp [ih]; tauto

theorem mem_setDel (k j : Nat) (l : List Nat) : j ∈ setDel k l ↔ j ∈ l ∧ j ≠ k := by
  simp [setDel]

end Sys2Proof.Machine
end

