-- ==== Sys2Proof/Laws/Records.lean ====
section
/-!
SUPPORT. Reading a record, a rack, a slot, a seat or a buffer after a write of one.
-/
namespace Sys2Proof.Machine

variable (s : State)

theorem language_setLanguage (i j : Nat) (v : Language) :
    (s.setLanguage i v).language j = if j = i then v else s.language j := by
  unfold State.setLanguage; dsimp only; split <;> exact tabGet_tabSet _ _ _ _ _

theorem channel_setChannel (i j : Nat) (v : Channel) :
    (s.setChannel i v).channel j = if j = i then v else s.channel j := by
  unfold State.setChannel; dsimp only; split <;> exact tabGet_tabSet _ _ _ _ _

theorem booth_setBooth (i j : Nat) (v : Booth) :
    (s.setBooth i v).booth j = if j = i then v else s.booth j := by
  unfold State.setBooth; dsimp only; split <;> exact tabGet_tabSet _ _ _ _ _

theorem account_setAccount (i j : Nat) (v : Account) :
    (s.setAccount i v).account j = if j = i then v else s.account j := by
  unfold State.setAccount; dsimp only; split <;> exact tabGet_tabSet _ _ _ _ _

theorem tariff_setTariff (i j : Nat) (v : Tariff) :
    (s.setTariff i v).tariff j = if j = i then v else s.tariff j := tabGet_tabSet _ _ _ _ _

theorem receiver_setReceiver (i j : Nat) (v : Option Receiver) :
    (s.setReceiver i v).receiver j = if j = i then v else s.receiver j := tabGet_tabSet _ _ _ _ _

theorem filter_setFilter (i j : Nat) (v : Filter) :
    (s.setFilter i v).filter j = if j = i then v else s.filter j := tabGet_tabSet _ _ _ _ _

theorem report_setReport (i j : Nat) (v : ClassReport) :
    (s.setReport i v).report j = if j = i then v else s.report j := tabGet_tabSet _ _ _ _ _

@[simp] theorem language_setLanguage_same (i : Nat) (v : Language) : (s.setLanguage i v).language i = v := by
  simp [language_setLanguage]

@[simp] theorem channel_setChannel_same (i : Nat) (v : Channel) : (s.setChannel i v).channel i = v := by
  simp [channel_setChannel]

@[simp] theorem booth_setBooth_same (i : Nat) (v : Booth) : (s.setBooth i v).booth i = v := by
  simp [booth_setBooth]

@[simp] theorem account_setAccount_same (i : Nat) (v : Account) : (s.setAccount i v).account i = v := by
  simp [account_setAccount]

@[simp] theorem receiver_setReceiver_same (i : Nat) (v : Option Receiver) : (s.setReceiver i v).receiver i = v := by
  simp [receiver_setReceiver]

@[simp] theorem tariff_setTariff_same (i : Nat) (v : Tariff) : (s.setTariff i v).tariff i = v := by
  simp [tariff_setTariff]

theorem port_setPort (p x : Port) (q : PortState) : (s.setPort p q).port x = if x = p then q else s.port x := by
  cases p <;> cases x <;> rfl

@[simp] theorem port_setPort_same (p : Port) (q : PortState) : (s.setPort p q).port p = q := by simp [port_setPort]

theorem rack_setRack (r x : Rack) (e : RackEngine) : (s.setRack r e).rack x = if x = r then e else s.rack x := by
  cases r <;> cases x <;> rfl

@[simp] theorem rack_setRack_same (r : Rack) (e : RackEngine) : (s.setRack r e).rack r = e := by simp [rack_setRack]

theorem buffer_setBuffer (r x : Rack) (v : Option Settlement) :
    (s.setBuffer r v).buffer x = if x = r then v else s.buffer x := by
  cases r <;> cases x <;> rfl

@[simp] theorem buffer_setBuffer_same (r : Rack) (v : Option Settlement) : (s.setBuffer r v).buffer r = v := by
  simp [buffer_setBuffer]

-- Racks and slots

theorem slot_setRack (r x : Rack) (e : RackEngine) (n : Nat) :
    (s.setRack r e).slot x n = if x = r then tabGet .initial e.slots n else s.slot x n := by
  unfold State.slot; rw [rack_setRack]; split <;> rfl

theorem slot_setSlot (r x : Rack) (n k : Nat) (v : Slot) :
    (s.setSlot r n v).slot x k = if x = r ∧ k = n then v else s.slot x k := by
  unfold State.setSlot
  rw [slot_setRack]
  by_cases h : x = r
  · subst h; simp [tabGet_tabSet, State.slot]
  · simp [h]

@[simp] theorem slot_setSlot_same (r : Rack) (n : Nat) (v : Slot) : (s.setSlot r n v).slot r n = v := by
  simp [slot_setSlot]

@[simp] theorem queue_setSlot (r x : Rack) (n : Nat) (v : Slot) :
    ((s.setSlot r n v).rack x).queue = (s.rack x).queue := by
  unfold State.setSlot; rw [rack_setRack]; split <;> simp_all

@[simp] theorem bus_setSlot (r x : Rack) (n : Nat) (v : Slot) :
    ((s.setSlot r n v).rack x).bus = (s.rack x).bus := by
  unfold State.setSlot; rw [rack_setRack]; split <;> simp_all

theorem due_setSlot (r x : Rack) (n : Nat) (v : Slot) :
    ((s.setSlot r n v).rack x).due =
      if x = r ∧ v.state.probed = false then setDel n (s.rack x).due else (s.rack x).due := by
  unfold State.setSlot; rw [rack_setRack]
  by_cases h : x = r
  · subst h; cases v.state.probed <;> simp
  · simp [h]

@[simp] theorem slot_setBus (r x : Rack) (b : Bus) (n : Nat) : (s.setBus r b).slot x n = s.slot x n := by
  unfold State.setBus; rw [slot_setRack]; split <;> simp_all [State.slot]

@[simp] theorem queue_setBus (r x : Rack) (b : Bus) : ((s.setBus r b).rack x).queue = (s.rack x).queue := by
  unfold State.setBus; rw [rack_setRack]; split <;> simp_all

@[simp] theorem due_setBus (r x : Rack) (b : Bus) : ((s.setBus r b).rack x).due = (s.rack x).due := by
  unfold State.setBus; rw [rack_setRack]; split <;> simp_all

theorem bus_setBus (r x : Rack) (b : Bus) : ((s.setBus r b).rack x).bus = if x = r then b else (s.rack x).bus := by
  unfold State.setBus; rw [rack_setRack]; split <;> simp_all

-- Seats

theorem seat_setSeat (b : Booth) (n k : Nat) (v : Seat) : (b.setSeat n v).seat k = if k = n then v else b.seat k :=
  tabGet_tabSet _ _ _ _ _

@[simp] theorem seat_setSeat_same (b : Booth) (n : Nat) (v : Seat) : (b.setSeat n v).seat n = v := by
  simp [seat_setSeat]

@[simp] theorem setSeat_config (b : Booth) (n : Nat) (v : Seat) : (b.setSeat n v).config = b.config := rfl
@[simp] theorem setSeat_link (b : Booth) (n : Nat) (v : Seat) : (b.setSeat n v).link = b.link := rfl
@[simp] theorem setSeat_granted (b : Booth) (n : Nat) (v : Seat) : (b.setSeat n v).granted = b.granted := rfl
@[simp] theorem setSeat_selected (b : Booth) (n : Nat) (v : Seat) : (b.setSeat n v).selected = b.selected := rfl
@[simp] theorem setSeat_handover (b : Booth) (n : Nat) (v : Seat) : (b.setSeat n v).handover = b.handover := rfl
@[simp] theorem setSeat_input (b : Booth) (n : Nat) (v : Seat) : (b.setSeat n v).input = b.input := rfl
@[simp] theorem setSeat_takers (b : Booth) (n : Nat) (v : Seat) : (b.setSeat n v).takers = b.takers := rfl
@[simp] theorem setSeat_stack (b : Booth) (n : Nat) (v : Seat) : (b.setSeat n v).stack = b.stack := rfl
@[simp] theorem setSeat_flash (b : Booth) (n : Nat) (v : Seat) : (b.setSeat n v).flash = b.flash := rfl
@[simp] theorem setSeat_language (b : Booth) (n : Nat) (v : Seat) : (b.setSeat n v).language = b.language := rfl

end Sys2Proof.Machine
end

