-- ==== Sys2Proof/Laws/Ports.lean ====
section
/-!
SUPPORT. What befalls the ports: the reservation law, the forming of notices, the taking of a command.
-/
namespace Sys2Proof.Machine

variable (s : State)

-- Reservations cleared by writes (R190)

theorem port_clearReservations (r : RecordName) (p : Port) :
    (s.clearReservations r).port p = (s.port p).clearOn r := by cases p <;> rfl

theorem port_setLanguage (i : Nat) (v : Language) (p : Port) :
    (s.setLanguage i v).port p = if v = s.language i then s.port p else (s.port p).clearOn (.language i) := by
  unfold State.setLanguage; dsimp only; split
  · cases p <;> rfl
  · rw [port_clearReservations]; cases p <;> rfl

theorem port_setChannel (i : Nat) (v : Channel) (p : Port) :
    (s.setChannel i v).port p =
      if v.view = (s.channel i).view then s.port p else (s.port p).clearOn (.channel i) := by
  unfold State.setChannel; dsimp only; split
  · cases p <;> rfl
  · rw [port_clearReservations]; cases p <;> rfl

theorem port_setBooth (i : Nat) (v : Booth) (p : Port) :
    (s.setBooth i v).port p =
      if v.view = (s.booth i).view then s.port p else (s.port p).clearOn (.booth i) := by
  unfold State.setBooth; dsimp only; split
  · cases p <;> rfl
  · rw [port_clearReservations]; cases p <;> rfl

theorem port_setAccount (i : Nat) (v : Account) (p : Port) :
    (s.setAccount i v).port p =
      if v.view = (s.account i).view then s.port p else (s.port p).clearOn (.account i) := by
  unfold State.setAccount; dsimp only; split
  · cases p <;> rfl
  · rw [port_clearReservations]; cases p <;> rfl

theorem port_setTariff (i : Nat) (v : Tariff) (p : Port) :
    (s.setTariff i v).port p = (s.port p).clearOn (.tariff i) := by cases p <;> rfl

theorem port_notify (p x : Port) (n : Notice) :
    (s.notify p n).port x = if x = p then (s.port x).post n else s.port x := by
  unfold State.notify; rw [port_setPort]; split <;> simp_all

theorem port_dropReservation (p x : Port) :
    (s.dropReservation p).port x = if x = p then { s.port x with reservation := none } else s.port x := by
  unfold State.dropReservation; rw [port_setPort]; split <;> simp_all

theorem port_consume (c : Bool) (p x : Port) :
    (s.consume c p).port x = if x = p then (s.port x).used c else s.port x := by
  unfold State.consume PortState.used
  cases c
  · simp
  · simp [port_dropReservation]

-- Notices and reservations do not meet

/-- The port with a reservation in place of its own. -/
def PortState.withReservation (q : PortState) (v : Option Reservation) : PortState := { q with reservation := v }

theorem clearOn_eq (q : PortState) (r : RecordName) :
    q.clearOn r = q.withReservation (q.reservation.filter fun v => v.record ≠ r) := by
  unfold PortState.clearOn PortState.withReservation
  cases q; rename_i res _ _
  cases res with
  | none => rfl
  | some v => by_cases h : v.record = r <;> simp [Option.filter, h]

@[simp] theorem withReservation_withReservation (q : PortState) (v w : Option Reservation) :
    (q.withReservation v).withReservation w = q.withReservation w := rfl

theorem sendNotice_withReservation (q : PortState) (v : Option Reservation) :
    (q.withReservation v).sendNotice = q.sendNotice.withReservation v := by
  cases q; rename_i notices _ _ _ _ _ _
  cases notices <;> rfl

theorem chooseFrame_withReservation (q : PortState) (v : Option Reservation) :
    (q.withReservation v).chooseFrame = q.chooseFrame.withReservation v := by
  obtain ⟨f, r, e, h, n, o, sending, hold, v', a, b⟩ := q
  cases sending with
  | some _ => rfl
  | none =>
    cases h with
    | none => cases hold; exact sendNotice_withReservation _ _; rfl
    | some h =>
      obtain ⟨tag, code, reply, ahead, begun⟩ := h
      cases begun with
      | true => cases hold; exact sendNotice_withReservation _ _; rfl
      | false =>
        by_cases ha : ahead = 0
        · subst ha; rfl
        · cases hold
          · simp only [PortState.chooseFrame, PortState.withReservation, ha, decide_false, Bool.or_self]
            exact sendNotice_withReservation ⟨f, r, e, some ⟨tag, code, reply, ahead, false⟩, n, o, none, false, v', a, b⟩ v
          · simp [PortState.chooseFrame, PortState.withReservation, PortState.sendReply]

theorem enqueue_withReservation (q : PortState) (n : Notice) (v : Option Reservation) :
    (q.withReservation v).enqueue n = (q.enqueue n).withReservation v := by
  unfold PortState.enqueue PortState.withReservation
  dsimp only
  split <;> rfl

theorem post_withReservation (q : PortState) (n : Notice) (v : Option Reservation) :
    (q.withReservation v).post n = (q.post n).withReservation v := by
  unfold PortState.post
  rw [enqueue_withReservation, chooseFrame_withReservation]

theorem post_reservation (q : PortState) (n : Notice) : (q.post n).reservation = q.reservation := by
  have := post_withReservation q n q.reservation
  have h : q.withReservation q.reservation = q := rfl
  rw [h] at this
  rw [this]; rfl

/-- A notice formed before a reservation is cleared and one formed after it leave the port alike. -/
theorem post_clearOn (q : PortState) (n : Notice) (r : RecordName) : (q.post n).clearOn r = (q.clearOn r).post n := by
  rw [clearOn_eq, clearOn_eq, post_withReservation, post_reservation]

theorem used_clearOn (q : PortState) (c : Bool) (r : RecordName) : (q.used c).clearOn r = (q.clearOn r).used c := by
  cases c
  · rfl
  · simp [PortState.used, clearOn_eq, PortState.withReservation]

@[simp] theorem clearOn_inHand (q : PortState) (r : RecordName) : (q.clearOn r).inHand = q.inHand := by
  rw [clearOn_eq]; rfl

@[simp] theorem clearOn_self (q : PortState) (r : RecordName) : (q.clearOn r).clearOn r = q.clearOn r := by
  simp only [clearOn_eq, withReservation_withReservation]
  congr 1
  show Option.filter _ (Option.filter _ q.reservation) = _
  cases q.reservation with
  | none => rfl
  | some v => by_cases h : v.record = r <;> simp [Option.filter, h]

-- How the ports' changes add up

theorem told_withReservation (q : PortState) (ns : List Notice) (v : Option Reservation) :
    (q.withReservation v).told ns = (q.told ns).withReservation v := by
  unfold PortState.told
  induction ns generalizing q with
  | nil => rfl
  | cons n ns ih => simp only [List.foldl_cons, post_withReservation, ih]

theorem told_reservation (q : PortState) (ns : List Notice) : (q.told ns).reservation = q.reservation := by
  unfold PortState.told
  induction ns generalizing q with
  | nil => rfl
  | cons n ns ih => rw [List.foldl_cons, ih, post_reservation]

theorem told_clearOn (q : PortState) (ns : List Notice) (r : RecordName) :
    (q.told ns).clearOn r = (q.clearOn r).told ns := by
  rw [clearOn_eq, clearOn_eq, told_withReservation, told_reservation]

theorem told_clearAll (q : PortState) (ns : List Notice) (rs : List RecordName) :
    (q.told ns).clearAll rs = (q.clearAll rs).told ns := by
  unfold PortState.clearAll
  induction rs generalizing q with
  | nil => rfl
  | cons r rs ih => rw [List.foldl_cons, List.foldl_cons, told_clearOn, ih]

theorem clearAll_append (q : PortState) (rs rs' : List RecordName) :
    q.clearAll (rs ++ rs') = (q.clearAll rs).clearAll rs' := by
  simp [PortState.clearAll, List.foldl_append]

theorem told_append (q : PortState) (ns ns' : List Notice) : q.told (ns ++ ns') = (q.told ns).told ns' := by
  simp [PortState.told, List.foldl_append]

/-- Two steps after each other clear and tell what each does, in order. -/
theorem Told.trans {s t u : State} {rs rs' : List RecordName} {ns ns' : Port → List Notice} (h : Told s t rs ns)
    (h' : Told t u rs' ns') : Told s u (rs ++ rs') (fun p => ns p ++ ns' p) := by
  intro p
  rw [h' p, h p, told_clearAll, clearAll_append, told_append]

theorem Told.refl (s : State) : Told s s [] toNone := fun _ => rfl

/-- A step that leaves the ports as they were clears nothing and tells nothing. -/
theorem Told.of_ports {s t : State} (h : ∀ p, t.port p = s.port p) : Told s t [] toNone := h

theorem Told.congr {s t : State} {rs : List RecordName} {ns ns' : Port → List Notice} (h : Told s t rs ns)
    (hn : ∀ p, ns p = ns' p) : Told s t rs ns' := fun p => by rw [h p, hn p]

theorem told_notify (p : Port) (n : Notice) : Told s (s.notify p n) [] (fun x => if x = p then [n] else []) := by
  intro x
  rw [port_notify]
  split <;> simp_all [PortState.told, PortState.clearAll]

theorem told_notifyOps (n : Notice) : Told s (s.notify .ops n) [] (toOps [n]) := told_notify s .ops n

theorem told_setLanguage (i : Nat) (v : Language) :
    Told s (s.setLanguage i v) (if v = s.language i then [] else [.language i]) toNone := by
  intro p; rw [port_setLanguage]; split <;> rfl

theorem told_setChannel (i : Nat) (v : Channel) :
    Told s (s.setChannel i v) (if v.view = (s.channel i).view then [] else [.channel i]) toNone := by
  intro p; rw [port_setChannel]; split <;> rfl

theorem told_setBooth (i : Nat) (v : Booth) :
    Told s (s.setBooth i v) (if v.view = (s.booth i).view then [] else [.booth i]) toNone := by
  intro p; rw [port_setBooth]; split <;> rfl

theorem told_setAccount (i : Nat) (v : Account) :
    Told s (s.setAccount i v) (if v.view = (s.account i).view then [] else [.account i]) toNone := by
  intro p; rw [port_setAccount]; split <;> rfl

theorem told_setTariff (i : Nat) (v : Tariff) : Told s (s.setTariff i v) [.tariff i] toNone := by
  intro p; rw [port_setTariff]; rfl

theorem Told.feedWork {s t : State} {rs : List RecordName} {ns : Port → List Notice} (h : Told s t rs ns) :
    Told s t.feedWork rs ns := fun p => by rw [feedWork_port, h p]

theorem toOps_append (a b : List Notice) (p : Port) : toOps a p ++ toOps b p = toOps (a ++ b) p := by
  unfold toOps; split <;> simp

theorem toDesk_append (r : Rack) (a b : List Notice) (p : Port) :
    toDesk r a p ++ toDesk r b p = toDesk r (a ++ b) p := by
  unfold toDesk; split <;> simp

-- Taking a command

/-- Outside INSTALL a permitted command with a payload of its length is carried out by its own rule (R177). -/
theorem answer_own {name : CommandName} {p : Port} {payload : List Byte} {own : State → State × Reply}
    (hr : s.run = .hall) (hp : name.permitted p = true) (hl : name.lengthOk payload.length = true) :
    s.answer name p payload own = own s := by
  simp [State.answer, hr, hp, hl]

/-- A command that reaches a port with no command in hand is taken at once (R176). -/
theorem command_taken {p : Port} (tag code : Byte) (payload : List Byte) (own : State → State × Reply)
    (h : s.Takes p) : s.command p tag code payload own = s.take p tag code own := by
  simp [State.command, h.1, h.2]

/-- What the taking of a command leaves: the state its rule left, the reply in hand, the feed link following. -/
theorem take_eq (p : Port) (tag code : Byte) (own : State → State × Reply) :
    s.take p tag code own =
      ((own s).1.setPort p (((own s).1.port p).hand tag code (own s).2)).feedWork := rfl

theorem port_take (p x : Port) (tag code : Byte) (own : State → State × Reply) :
    (s.take p tag code own).port x =
      if x = p then ((own s).1.port x).hand tag code (own s).2 else (own s).1.port x := by
  rw [take_eq, feedWork_port, port_setPort]
  split <;> simp_all

/-- The state after a command's step: `s'` is what its rule left, `r` its reply (R176). -/
def State.after (s' : State) (p : Port) (tag code : Byte) (r : Reply) : State :=
  (s'.setPort p ((s'.port p).hand tag code r)).feedWork

/-- What a client command answers when it is taken and its rule leaves `s'` with the reply `r` (R176, R177). -/
theorem client_next {s s' : State} {p : Port} {tag : Byte} {payload : List Byte} {name : CommandName}
    {f : State → State × Reply} {r : Reply} (h : s.Takes p) (hp : name.permitted p = true)
    (hl : name.lengthOk payload.length = true) (hf : f s = (s', r)) :
    (.next (s.command p tag name.code payload fun s => s.answer name p payload f) : Outcome) =
      .next (s'.after p tag name.code r) := by
  have : s.answer name p payload f = (s', r) := by rw [answer_own s h.1 hp hl, hf]
  rw [command_taken s tag name.code payload _ h, take_eq]
  simp only [this, State.after]

theorem port_after (s' : State) (p x : Port) (tag code : Byte) (r : Reply) :
    (s'.after p tag code r).port x = if x = p then (s'.port x).hand tag code r else s'.port x := by
  unfold State.after
  rw [feedWork_port, port_setPort]
  split <;> simp_all

theorem answered_after {s s' : State} {p : Port} {tag code : Byte} {r : Reply} {rs : List RecordName}
    {ns : Port → List Notice} (h : Told s s' rs ns) : Answered s (s'.after p tag code r) p tag code r rs ns := by
  intro x
  rw [port_after, h x]

theorem answeredIf_after {s s' : State} {p : Port} {c : Bool} {tag code : Byte} {r : Reply} {rs : List RecordName}
    {ns : Port → List Notice} (h : Told s s' rs ns) :
    AnsweredIf s ((s'.consume c p).after p tag code r) c p tag code r rs ns := by
  intro x
  rw [port_after, port_consume, h x]
  split <;> simp_all

-- Refusals

@[simp] theorem firstFailure_nil : firstFailure [] = none := rfl

/-- The first check decides, or the rest does. -/
@[simp] theorem firstFailure_cons (fails : Bool) (x : Result) (checks : List (Bool × Result)) :
    firstFailure ((fails, x) :: checks) = if fails then some x else firstFailure checks := by
  cases fails <;> simp [firstFailure]

/-- The feed link writes nothing but its own record. -/
theorem feedWork_frame : s.feedWork = { s with feed := s.feedWork.feed } := by
  unfold State.feedWork
  dsimp only
  split
  · split <;> rfl
  · rfl

/-- A port written, and the feed link after it: the ports and the feed link alone. -/
theorem after_frame (p : Port) (tag code : Byte) (r : Reply) :
    s.after p tag code r =
      { s with
        opsPort := (s.after p tag code r).opsPort, deskAPort := (s.after p tag code r).deskAPort,
        deskBPort := (s.after p tag code r).deskBPort, feed := (s.after p tag code r).feed } := by
  unfold State.after
  rw [feedWork_frame]
  cases p <;> rfl

/-- A client command that is taken, and whose own rule leaves the state as it was, is answered and changes nothing. -/
theorem answers_own {i : Instr} {p : Port} {tag : Byte} {payload : List Byte} {name : CommandName}
    {f : State → State × Reply} {r : Reply}
    (hi : exec i s = .next (s.command p tag name.code payload fun s => s.answer name p payload f))
    (h : s.Takes p) (hp : name.permitted p = true) (hl : name.lengthOk payload.length = true) (hf : f s = (s, r)) :
    Answers i s p tag name.code r :=
  ⟨_, hi.trans (client_next h hp hl hf), answered_after (Told.refl s), after_frame s p tag name.code r⟩

/-- A hall event whose effect leaves the state as it was is ignored. -/
theorem ignored_event {i : Instr} {effect : State → State} (hi : exec i s = .next (s.hallEvent effect))
    (he : s.run = .hall → effect s = s) : Ignored i s := by
  by_cases h : s.run = .hall
  · refine ⟨s.feedWork, ?_, feedWork_frame s⟩
    rw [hi]
    unfold State.hallEvent
    rw [if_pos h, he h]
  · refine ⟨s, ?_, rfl⟩
    rw [hi]
    unfold State.hallEvent
    rw [if_neg h]

end Sys2Proof.Machine
end

