-- ==== Sys2Proof/Laws/Languages.lean ====
section
/-!
SUPPORT. What the operations of Chapter 1 do: a channel's state, a language's owner and channel fields, redirects.
-/
namespace Sys2Proof.Machine

variable (s : State)

@[simp] theorem setChannelState_eq (c : Nat) (v : ChannelState) :
    s.setChannelState c v = s.setChannel c { s.channel c with state := v } := rfl

@[simp] theorem setLanguageChannel_eq (l : Nat) (c : Option Nat) :
    s.setLanguageChannel l c = s.setLanguage l { s.language l with channel := c } := rfl

@[simp] theorem channelChanged_eq (c : Nat) : s.channelChanged c = s.notify .ops (.channelChanged c (s.channel c)) := rfl

@[simp] theorem boundState_language (l : Nat) (o : Option Nat) : (boundState l o).language = some l := by
  unfold boundState; split <;> rfl

@[simp] theorem boundState_target (l : Nat) (o : Option Nat) : (boundState l o).target = 0 := by
  unfold boundState; split <;> rfl

theorem boundState_ne_free (l : Nat) (o : Option Nat) : boundState l o ≠ .free := by
  unfold boundState; split <;> simp

/-- Channels with equal reserved views name the same language and the same target. -/
theorem view_state {c d : Channel} (h : c.view = d.view) :
    c.state.language = d.state.language ∧ c.state.target = d.state.target := by
  obtain ⟨a, _, _⟩ := c
  obtain ⟨b, _, _⟩ := d
  cases a <;> cases b <;> simp_all [Channel.view, ChannelState.language, ChannelState.target]

/-- The reserved view tells states apart but for the remaining hold. -/
theorem view_setState (c : Channel) (v : ChannelState) (h : ∀ t k, c.state ≠ .redirect t k) :
    ({ c with state := v } : Channel).view = c.view ↔ v = c.state := by
  obtain ⟨a, _, _⟩ := c
  cases a <;> cases v <;> simp_all [Channel.view]

theorem told_setChannel_of_ne (i : Nat) (v : Channel) (h : v.view ≠ (s.channel i).view) :
    Told s (s.setChannel i v) [.channel i] toNone := by
  simpa [h] using told_setChannel s i v

theorem told_setLanguage_of_ne (i : Nat) (v : Language) (h : v ≠ s.language i) :
    Told s (s.setLanguage i v) [.language i] toNone := by
  simpa [h] using told_setLanguage s i v

theorem told_channelChanged (c : Nat) : Told s (s.channelChanged c) [] (toOps [.channelChanged c (s.channel c)]) :=
  told_notifyOps s _

-- The end of a redirect (R15, R18)

/-- The end of a redirect: the channel becomes FREE, and its two notices are sent. -/
theorem endRedirect_redirect {x target hold : Nat} (cause : Cause) (h : (s.channel x).state = .redirect target hold) :
    s.endRedirect x cause =
      ((s.setChannel x { s.channel x with state := .free }).notify .ops
        (.channelChanged x { s.channel x with state := .free })).notify .ops (.redirectEnded x target cause) := by
  simp [State.endRedirect, h]

theorem endRedirect_other {x : Nat} (cause : Cause) (h : (s.channel x).state.target = 0)
    (h' : ∀ k, (s.channel x).state ≠ .redirect 0 k) : s.endRedirect x cause = s := by
  unfold State.endRedirect
  split
  · rename_i t k hs
    rw [hs] at h h'
    simp only [ChannelState.target] at h
    subst h
    exact absurd rfl (h' k)
  · rfl

theorem told_endRedirect {x target hold : Nat} (cause : Cause) (h : (s.channel x).state = .redirect target hold) :
    Told s (s.endRedirect x cause) [.channel x]
      (toOps [.channelChanged x { s.channel x with state := .free }, .redirectEnded x target cause]) := by
  rw [endRedirect_redirect s cause h]
  have hv : ({ s.channel x with state := .free } : Channel).view ≠ (s.channel x).view := by
    intro e
    simp [Channel.view, h] at e
  refine ((told_setChannel_of_ne s x _ hv).trans ((told_notifyOps _ _).trans (told_notifyOps _ _))).congr ?_
  intro p
  simp only [toNone, List.nil_append, toOps_append, List.singleton_append]

theorem channel_endRedirect {x target hold : Nat} (cause : Cause) (h : (s.channel x).state = .redirect target hold)
    (y : Nat) :
    (s.endRedirect x cause).channel y = if y = x then { s.channel x with state := .free } else s.channel y := by
  rw [endRedirect_redirect s cause h]
  simp [channel_setChannel]

/-- The end of a redirect touches the channel map and the ports alone. -/
theorem endRedirect_frame (x : Nat) (cause : Cause) :
    s.endRedirect x cause =
      { s with
        channels := (s.endRedirect x cause).channels, opsPort := (s.endRedirect x cause).opsPort,
        deskAPort := (s.endRedirect x cause).deskAPort, deskBPort := (s.endRedirect x cause).deskBPort } := by
  unfold State.endRedirect
  split <;> ext <;> simp

-- Ownership (R6 to R11)

/-- The language's channel follows its owner: it moves between MAPPED and LIVE and CHANNEL_CHANGED is sent, or nothing
happens. -/
theorem followOwner_frame (l : Nat) :
    s.followOwner l =
      { s with
        channels := (s.followOwner l).channels, opsPort := (s.followOwner l).opsPort,
        deskAPort := (s.followOwner l).deskAPort, deskBPort := (s.followOwner l).deskBPort } := by
  unfold State.followOwner
  split
  · rfl
  · dsimp only; split
    · rfl
    · ext <;> simp

/-- A write of an owner field touches the language table, the channel map and the ports alone. -/
theorem setOwner_frame (l : Nat) (o : Option Nat) :
    s.setOwner l o =
      { s with
        languages := (s.setOwner l o).languages, channels := (s.setOwner l o).channels,
        opsPort := (s.setOwner l o).opsPort, deskAPort := (s.setOwner l o).deskAPort,
        deskBPort := (s.setOwner l o).deskBPort } := by
  unfold State.setOwner
  dsimp only
  split
  · rfl
  · rw [followOwner_frame]; ext <;> simp

/-- Every other field of a language, and every other language, stands through a write of an owner field. -/
theorem language_setOwner (l : Nat) (o : Option Nat) (k : Nat) :
    (s.setOwner l o).language k = if k = l then { s.language l with owner := o } else s.language k := by
  unfold State.setOwner
  dsimp only
  split
  · rename_i h
    by_cases hk : k = l
    · subst hk; simp [← h]
    · simp [hk]
  · rw [followOwner_frame]
    simp only [State.language]
    have := language_setLanguage s l k { s.language l with owner := o }
    simpa [State.language] using this

end Sys2Proof.Machine
end

