-- ==== Sys2Proof/Laws/Booths.lean ====
section
/-!
SUPPORT. What the shared operations of the booths do: the lamps and their timers, a lapse, the writing of an input, an
answer on the booth link, the relay part of a configuration.
-/
namespace Sys2Proof.Machine

variable (s : State)

/-- A flash writes one timer of one booth, clears no reservation and tells nothing (R41). -/
theorem told_flashLamp (b : Nat) (lamp : FlashLamp) : Told s (s.flashLamp b lamp) [] toNone := by
  have h := told_setBooth s b { s.booth b with flash := (s.booth b).flash.set lamp Config.flashSeconds }
  rwa [if_pos (by rfl)] at h

theorem booth_flashLamp (b x : Nat) (lamp : FlashLamp) :
    (s.flashLamp b lamp).booth x =
      if x = b then { s.booth b with flash := (s.booth b).flash.set lamp Config.flashSeconds } else s.booth x := by
  unfold State.flashLamp
  rw [booth_setBooth]

/-- A hall event whose effect is a flash writes the lamp's timer and nothing else. -/
theorem flashes_event {i : Instr} {effect : State → State} {b : Nat} {lamp : FlashLamp} (hr : s.run = .hall)
    (hi : exec i s = .next (s.hallEvent effect)) (he : effect s = s.flashLamp b lamp) : Flashes i s b lamp := by
  have hs : s.hallEvent effect = (s.flashLamp b lamp).feedWork := by
    unfold State.hallEvent
    rw [if_pos hr, he]
  refine ⟨_, hi.trans (congrArg _ hs), ?_, fun x hx => ?_, (told_flashLamp s b lamp).feedWork, ?_⟩
  · rw [feedWork_booth, booth_flashLamp, if_pos rfl]
    cases lamp <;> rfl
  · rw [feedWork_booth, booth_flashLamp, if_neg hx]
  · rw [feedWork_frame]
    unfold State.flashLamp State.setBooth State.clearReservations
    dsimp only
    split <;> rfl

/-- The lapse of a pending request (R56): the request goes and the operations port is told. -/
theorem lapse_some {b : Nat} {r : Request} (h : (s.booth b).handover = some r) :
    s.lapse b =
      (s.setBooth b { s.booth b with handover := none }).notifyOps
        (.handoverLapsed b r.requester (s.booth b).onAirSeat) := by
  simp [State.lapse, h]

theorem told_lapse {b : Nat} {r : Request} (h : (s.booth b).handover = some r) :
    Told s (s.lapse b) [.booth b] (toOps [.handoverLapsed b r.requester (s.booth b).onAirSeat]) := by
  rw [lapse_some s h]
  have hv : ({ s.booth b with handover := none } : Booth).view ≠ (s.booth b).view := by
    intro e
    have := congrArg BoothView.requester e
    simp [Booth.view, h] at this
  have h1 := told_setBooth s b { s.booth b with handover := none }
  rw [if_neg hv] at h1
  have h2 := h1.trans (told_notifyOps _ (.handoverLapsed b r.requester (s.booth b).onAirSeat))
  exact (h2.congr fun p => by simp [toNone])

/-- A booth's input written (R70, R75): the booth alone changes. -/
theorem booth_writeInput (x y : Nat) (i : Input) (push : Bool) :
    (s.writeInput x i push).booth y =
      if y = x then
        { s.booth x with
          input := i
          stack := if push then (s.booth x).stack.push (s.booth x).input else (s.booth x).stack }
      else s.booth y := by
  unfold State.writeInput
  rw [booth_setBooth]

/-- A booth leaves the taker set of its source, if it has one (R70, R71). -/
theorem booth_leaveSource (x y : Nat) :
    (s.leaveSource x).booth y =
      if (s.booth x).input = .relay y then { s.booth y with takers := setDel x (s.booth y).takers } else s.booth y := by
  unfold State.leaveSource
  split
  · rename_i h; simp [h]
  · rename_i a h
    rw [booth_setBooth]
    by_cases hy : y = a
    · subst hy; simp [h]
    · have : a ≠ y := fun e => hy e.symm
      simp [h, hy, this]

-- The lamps (R40, R46, R47)

theorem lamps_of_present {b : Nat} (h : (s.booth b).link.state = .present) : s.lamps b = s.lampsPresent b := by
  simp [State.lamps, Booth.present, h]

theorem lamps_of_not_present {b : Nat} (h : (s.booth b).link.state ≠ .present) : s.lamps b = .dark := by
  simp [State.lamps, Booth.present, h]

-- Answers on the booth link (R87)

/-- In its booth's slot an answer is taken, and the slot then waits for no other. -/
theorem inSlot_of_line {b : Nat} {m : LinkMessage} {own : State → State} (h : s.line = some (b, m)) :
    s.inSlot b own = own { s with line := none } := by
  simp [State.inSlot, h]

/-- Outside its booth's slot an answer is not received. -/
theorem inSlot_of_ne {b : Nat} {own : State → State} (h : s.line.map (·.1) ≠ some b) : s.inSlot b own = s := by
  unfold State.inSlot
  split <;> simp_all

-- A configuration's relay part (R30)

/-- With the selected output language as it was, the booth's own relay alone is tested. -/
theorem configRelays_unchanged (b : Nat) (y : Option Nat) : s.configRelays b false y = s.configRelay b := by
  simp [State.configRelays, setAdd]

end Sys2Proof.Machine
end

