-- ==== Sys2Proof/Laws/Racks.lean ====
section
/-!
SUPPORT. What the shared operations of the rack engines do: the choice of the next transaction, the end of one.
-/
namespace Sys2Proof.Machine

variable (s : State)

/-- The choice of a transaction writes the bus and the due marks of the rack, and nothing else (R110). -/
theorem chooseWork_eq (r : Rack) :
    ∃ bus due, s.chooseWork r = s.setRack r { s.rack r with bus := bus, due := due } := by
  unfold State.chooseWork State.setBus
  split
  · exact ⟨_, _, rfl⟩
  · split
    · exact ⟨_, _, rfl⟩
    · split
      · refine ⟨(s.rack r).bus, (s.rack r).due, ?_⟩
        cases r <;> rfl
      · exact ⟨_, _, rfl⟩

/-- An engine that looks for work writes its bus and its due marks, and nothing else (R110, R111). -/
theorem kickRack_eq (r : Rack) : ∃ bus due, s.kickRack r = s.setRack r { s.rack r with bus := bus, due := due } := by
  unfold State.kickRack
  split
  · exact chooseWork_eq s r
  · refine ⟨(s.rack r).bus, (s.rack r).due, ?_⟩
    cases r <;> rfl

@[simp] theorem kickRack_port (r : Rack) (p : Port) : (s.kickRack r).port p = s.port p := by
  obtain ⟨b, d, h⟩ := kickRack_eq s r
  rw [h]; cases r <;> cases p <;> rfl

@[simp] theorem kickRack_slot (r x : Rack) (n : Nat) : (s.kickRack r).slot x n = s.slot x n := by
  obtain ⟨b, d, h⟩ := kickRack_eq s r
  rw [h]; cases r <;> cases x <;> rfl

@[simp] theorem kickRack_queue (r x : Rack) : ((s.kickRack r).rack x).queue = (s.rack x).queue := by
  obtain ⟨b, d, h⟩ := kickRack_eq s r
  rw [h]; cases r <;> cases x <;> rfl

theorem kickRack_rack_ne {r x : Rack} (hx : x ≠ r) : (s.kickRack r).rack x = s.rack x := by
  obtain ⟨b, d, h⟩ := kickRack_eq s r
  rw [h, rack_setRack, if_neg hx]

/-- But for the two rack engines, an engine that looks for work leaves the state as it was. -/
theorem kickRack_frame (r : Rack) :
    s.kickRack r = { s with rackA := (s.kickRack r).rackA, rackB := (s.kickRack r).rackB } := by
  obtain ⟨b, d, h⟩ := kickRack_eq s r
  rw [h]; cases r <;> rfl

theorem told_kickRack (r : Rack) : Told s (s.kickRack r) [] toNone := fun p => kickRack_port s r p

/-- An engine that is busy, or whose rack is not fitted, starts nothing. -/
theorem kickRack_of_busy {r : Rack} (h : (s.rack r).bus ≠ .idle ∨ s.rackFitted r = false) : s.kickRack r = s := by
  unfold State.kickRack
  rcases h with h | h <;> simp [h]

variable {s}

/-- A first LINE_FAULT of the transaction in flight sets the slot's retry mark, and the transaction goes on (R109). -/
theorem dockEnd_retry {r : Rack} {t : Transaction} {answers : Transaction → Bool} {own : Transaction → State → State}
    (hb : (s.rack r).bus = .busy t) (ha : answers t = true) (hr : (s.slot r t.slot).retry = false) :
    s.dockEnd r answers true own = s.setSlot r t.slot { s.slot r t.slot with retry := true } := by
  simp [State.dockEnd, hb, ha, hr]

/-- A second LINE_FAULT frees the bus, faults the slot and lets the engine choose (R109). -/
theorem dockEnd_fault {r : Rack} {t : Transaction} {answers : Transaction → Bool} {own : Transaction → State → State}
    (hb : (s.rack r).bus = .busy t) (ha : answers t = true) (hr : (s.slot r t.slot).retry = true) :
    s.dockEnd r answers true own = ((s.setBus r .idle).faultSlot r t.slot t.kind).kickRack r := by
  simp [State.dockEnd, hb, ha, hr]

/-- A DONE or a NO_ANSWER frees the bus, clears the retry mark, is taken by its own rule, and the engine chooses (R109,
R110). -/
theorem dockEnd_outcome {r : Rack} {t : Transaction} {answers : Transaction → Bool} {own : Transaction → State → State}
    (hb : (s.rack r).bus = .busy t) (ha : answers t = true) :
    s.dockEnd r answers false own =
      (own t ((s.setBus r .idle).setSlot r t.slot { s.slot r t.slot with retry := false })).kickRack r := by
  simp [State.dockEnd, hb, ha]

/-- An outcome that a RACK_RESET has discarded in advance frees the bus alone (R125). -/
theorem dockEnd_drained {r : Rack} {t : Transaction} {answers : Transaction → Bool} {own : Transaction → State → State}
    (lineFault : Bool) (hb : (s.rack r).bus = .draining t) (ha : answers t = true) :
    s.dockEnd r answers lineFault own = (s.setBus r .idle).kickRack r := by
  simp [State.dockEnd, hb, ha]

end Sys2Proof.Machine
end

