-- ==== Sys2Proof/Tests/Slice0.lean ====
section
/-!
SUPPORT. Tests: ill-formed terms that WellFormed refuses, worked examples of the manual, and, for every statement that has
hypotheses, states and operands that meet them (theorems named witness_<statement>).
-/
namespace Sys2Proof.Tests

open Sys2Proof.Machine

-- One test at a time: kernel evaluations that wait on one another would each hold a thread.
set_option Elab.async false

-- WellFormed refuses an ill-formed term for each of its checks

theorem test_wf_payload : (Instr.status .ops 0 (List.replicate 251 0)).wellFormed = false := by decide +kernel
theorem test_wf_known_code : (Instr.unknownCommand .ops 0 0x42 []).wellFormed = false := by decide +kernel
theorem test_wf_store : (Instr.profileWrite .ops 0 [] (some ⟨[], 0⟩)).wellFormed = false := by decide +kernel
theorem test_wf_booth_zero : (Instr.boothSlot 0).wellFormed = false := by decide +kernel
theorem test_wf_booth_high : (Instr.outputA 17).wellFormed = false := by decide +kernel
theorem test_wf_advert_seats : (Instr.advertise 1 ⟨8, true, true, true, 1⟩).wellFormed = false := by decide +kernel
theorem test_wf_advert_events : (Instr.grantAck 1 ⟨3, true, true, true, 0⟩).wellFormed = false := by decide +kernel
theorem test_wf_seat : (Instr.mic 16 4).wellFormed = false := by decide +kernel
theorem test_wf_channel : (Instr.redirectExpiry 25).wellFormed = false := by decide +kernel
theorem test_wf_slot : (Instr.probeOutcome .a 32 .done).wellFormed = false := by decide +kernel
theorem test_wf_ident : (Instr.identOutcome .a 31 (.done ⟨16777216, 0, .stock, 0⟩)).wellFormed = false := by
  decide +kernel
theorem test_wf_accepts : (Instr.identOutcome .b 31 (.done ⟨16777215, 100, .hired, 24⟩)).wellFormed = true := by
  decide +kernel

-- Decode: no row of the table has bits

theorem test_decode_none : decodeTableWord 8 0x42 = none := rfl

-- Worked examples and values of the manual

/-- R148: the CRC of "123456789" is 29B1H. -/
theorem test_crc : crc16 [0x31, 0x32, 0x33, 0x34, 0x35, 0x36, 0x37, 0x38, 0x39] = 0x29B1#16 := by decide +kernel

/-- R203: the store of State.reset is blank. -/
theorem test_erased_store_is_blank : storedFields erasedStore = none := by decide +kernel

/-- R206: State.reset is what a cold hall start leaves. -/
theorem test_reset_is_cold_start :
    ({ State.reset with run := .off, marker := false } : State).hallStart = State.reset := by decide +kernel

/-- Section 8.8, step 1: 413 minutes at 150 a half hour, grace 10, cap 900 a day, charge 900. -/
theorem test_charge_capped : charge ⟨150, 30, 10, 900, 5000, 12000, 2⟩ ⟨4880, 3⟩ ⟨5293, 3⟩ = ⟨900, false⟩ := by
  decide +kernel

/-- Section 8.8, step 4: over two hall days the charge is 1,800. -/
theorem test_charge_two_days : charge ⟨150, 30, 10, 900, 5000, 12000, 2⟩ ⟨4885, 3⟩ ⟨6720, 4⟩ = ⟨1800, false⟩ := by
  decide +kernel

/-- Section 8.9, step 1: the charge is clamped at 4,294,967,295 with the flag. -/
theorem test_charge_ceiling :
    charge ⟨65535, 1, 0, 0, 2000, 20000, 2⟩ ⟨0, 0⟩ ⟨16777215, 0⟩ = ⟨4294967295, true⟩ := by decide +kernel

/-- Section 8.9, step 2: total 4,294,967,295 against a deposit of 2,000 is due 4,294,965,295. -/
theorem test_settlement_due :
    (settlementOf ⟨500, 0⟩ ⟨6, ⟨65535, 1, 0, 0, 2000, 20000, 2⟩, 4294967295, [], 2, 1, true, ⟨0, 0⟩, .a, 0⟩ .a
      ⟨16777215, 0⟩).due = 4294965295 := by decide +kernel

/-- The filters of R145's example: the chain flags of 0, 2, 3 and 5 set. -/
def chained : State :=
  { State.reset with
    filters := [0, 2, 3, 5].map fun k => (k, { Filter.initial with chain := true }) }

/-- R145: the groups are 0 and 1; 2, 3 and 4; 5 and 6; 7. -/
theorem test_groups : chained.groups = [[0, 1], [2, 3, 4], [5, 6], [7]] := by decide +kernel

/-- R173: noise before SYNC is discarded, and a whole STATUS command is taken. -/
theorem test_frame :
    (match execFrameReceived .ops false (onLine (0x00 :: frameBytes 0x01 0x2A 0x01 [])) State.reset with
     | .next t => (t.opsPort.inHand.map (·.tag), t.opsPort.frameError)
     | _ => (none, true)) = (some 0x2A, false) := by decide +kernel

/-- R171: a frame with a byte whose stop bit is missing fails its check, though every value is right. -/
theorem test_frame_stop_bit :
    (match execFrameReceived .ops false ((frameBytes 0x01 0x2A 0x01 []).map fun b => ⟨b, b ≠ 0x2A⟩) State.reset with
     | .next t => (t.opsPort.inHand.isSome, t.opsPort.frameError)
     | _ => (true, false)) = (false, true) := by decide +kernel

/-- R47: after a start every lamp of an ABSENT booth is off. -/
theorem test_lamps_off : (State.reset.lamps 16).outputA = .off ∧ (State.reset.lamps 16).floor = .off := by decide +kernel

-- Small states for the witnesses

/-- A language with the code AAA, an owner and a channel. -/
def lang (owner channel : Option Nat) : Language := ⟨true, [0x41, 0x41, 0x41], [], channel, owner, 0⟩

/-- All abilities. -/
def full : Abilities := ⟨3, true, true, true, 4⟩

/-- A PRESENT booth with outputs 0 and 1 and all abilities. -/
def console : Booth :=
  { Booth.initial with
    config := ⟨some 0, some 1, .direct, [0, 1], 10⟩
    link := { Link.initial with state := .present, grant := some full }
    granted := some full }

/-- The console with seat 1 on air. -/
def onAir : Booth := { console with seats := [(1, ⟨.live, 65535, false, 0⟩)] }

/-- The reset state with the given booths and languages. -/
def hall (booths : Tab Booth) (languages : Tab Language) : State :=
  { State.reset with booths := booths, languages := languages }

/-- Where booth 16 alone may have takers, every booth's taker set rises if its does. -/
theorem takersRise_hall {v : Booth} (h : v.takers.Pairwise (· < ·) ∧ 16 ∉ v.takers) (languages : Tab Language) :
    (hall [(16, v)] languages).TakersRise := by
  intro b
  by_cases hb : 16 = b
  · subst hb; exact h
  · have : (hall [(16, v)] languages).booth b = Booth.initial := by simp [hall, State.booth, tabGet, hb]
    rw [this]
    exact ⟨List.Pairwise.nil, List.not_mem_nil⟩

/-- A language bound to channel 24, which a redirect of channel 1 follows. -/
def mapped : State :=
  { hall [] [(31, lang none (some 24))] with
    channels := [(1, ⟨.redirect 24 1, true, 0⟩), (24, ⟨.mapped 31, true, 0⟩)] }

/-- R22, R96: a mute and an unmute in one answer make a transmission due, though the table is then as it was. -/
theorem test_mute_unmute_transmits :
    let s := { hall [(16, onAir)] [(0, lang (some 16) (some 1))] with channels := [(1, ⟨.live 0, true, 0⟩)] }
    let idle : State := { s with line := some (16, .joinProbe), feed := ⟨s.feedTable, false, false⟩ }
    (match execStatusReply 16 0 [.muteDown 1, .muteUp 1] idle with
     | .next t => (t.feed.sending, t.feed.due)
     | _ => (false, false)) = (true, true) := by decide +kernel

-- Commands in general

theorem witness_StepTakesFrontCommand :
    (∃ (s : State) (c : Instr), s.pending = [c]) ∧ State.reset.pending = [] :=
  ⟨⟨{ State.reset with pending := [.resetn] }, .resetn, rfl⟩, rfl⟩

-- Languages and channels

theorem witness_LanguageCommandsWrite_define :
    State.reset.Takes .ops ∧ (0x1F : Byte).toNat ≤ 31 ∧ ([0x41, 0x5A, 0x41] : List Byte).all capital = true ∧
      ([0x20, 0x7E] : List Byte).all printable = true ∧ State.reset.Allows false .ops ⟨.language 31, 0⟩ ∧
      (∀ j, j ≤ 31 → j ≠ 31 → (State.reset.language j).defined = true →
        (State.reset.language j).code ≠ [0x41, 0x5A, 0x41]) ∧
      ((State.reset.language 31).defined = true → (State.reset.language 31).code = [0x41, 0x5A, 0x41]) := by
  decide +kernel

theorem witness_LanguageCommandsWrite_remove :
    (hall [] [(31, lang none none)]).Takes .ops ∧ ((hall [] [(31, lang none none)]).language 31).defined = true ∧
      ((hall [] [(31, lang none none)]).language 31).channel = none ∧
      ((hall [] [(31, lang none none)]).language 31).owner = none ∧
      ((hall [] [(31, lang none none)]).language 31).listeners = 0 ∧
      ∀ b, 1 ≤ b → b ≤ 16 →
        ((hall [] [(31, lang none none)]).booth b).config.outputA ≠ some 31 ∧
        ((hall [] [(31, lang none none)]).booth b).config.outputB ≠ some 31 ∧
        31 ∉ ((hall [] [(31, lang none none)]).booth b).config.accepted :=
  ⟨by decide +kernel, by decide +kernel, by decide +kernel, by decide +kernel, by decide +kernel, fun _ _ _ =>
    ⟨by simp [hall, State.booth, tabGet, Booth.initial, BoothConfig.initial],
     by simp [hall, State.booth, tabGet, Booth.initial, BoothConfig.initial],
     by simp [hall, State.booth, tabGet, Booth.initial, BoothConfig.initial]⟩⟩

/-- In the state a command of the port is taken, and the first of its checks that fails has the result. -/
abbrev Fails (s : State) (p : Port) (checks : List (Bool × Result)) (r : Result) : Prop :=
  s.Takes p ∧ firstFailure checks = some r

/-- Each refusal of LANG_DEFINE and LANG_REMOVE. -/
theorem witness_LanguageCommandsWrite_refused :
    let s := hall [] [(31, lang (some 16) none)]
    let code : List Byte := [0x41, 0x41, 0x41]
    let label : List Byte := List.replicate 12 0x7E
    Fails s .ops (langDefineChecks s 0x00 0x20 code label) .badArg ∧
      Fails s .ops (langDefineChecks s 0x00 0x00 code (0x1F :: label.tail)) .badArg ∧
      Fails s .ops (langDefineChecks s 0x01 0x1F code label) .reservationLost ∧
      Fails s .ops (langDefineChecks s 0x00 0x00 code label) .exists ∧
      Fails s .ops (langDefineChecks s 0x00 0x1F [0x41, 0x41, 0x42] label) .wrongState ∧
      Fails s .ops (langRemoveChecks s 0x20) .badArg ∧ Fails s .ops (langRemoveChecks s 0x1E) .noRecord ∧
      Fails s .ops (langRemoveChecks s 0x1F) .wrongState := by decide +kernel

theorem witness_ChanMapBinds :
    let s := hall [] [(31, lang (some 16) none)]
    s.Takes .ops ∧ s.channelOk 0x18 = true ∧ (s.language 31).defined = true ∧ (s.language 31).channel = none ∧
      (s.channel 24).state = .free := by decide +kernel

/-- Each refusal of the channel commands; a valid reservation lets a later check refuse. -/
theorem witness_ChannelCommands_refused :
    let s := { mapped with opsPort := { mapped.opsPort with reservation := some ⟨.channel 1, 0⟩ } }
    let u := hall [] [(31, { lang none (some 24) with listeners := 1 })]
    let v := { u with channels := [(24, ⟨.mapped 31, true, 0⟩)] }
    Fails s .ops (chanMapChecks s 0x19 0x1F) .badArg ∧ Fails s .ops (chanMapChecks s 0x02 0x00) .noRecord ∧
      Fails s .ops (chanMapChecks s 0x02 0x1F) .wrongState ∧
      Fails s .ops (chanUnmapChecks s 0x00 0x00 0x00) .badArg ∧
      Fails s .ops (chanUnmapChecks s 0x01 0x18 0x00) .reservationLost ∧
      Fails s .ops (chanUnmapChecks s 0x01 0x01 0x00) .wrongState ∧
      Fails v .ops (chanUnmapChecks v 0x00 0x18 0x00) .wrongState ∧
      Fails s .ops (chanMoveChecks s 0x00 0x18 0x18) .badArg ∧
      Fails s .ops (chanMoveChecks s 0x01 0x18 0x02) .reservationLost ∧
      Fails s .ops (chanMoveChecks s 0x00 0x18 0x01) .wrongState ∧ badChannel s 0x19 = true := by decide +kernel

theorem witness_ChanUnmapFrees :
    mapped.Takes .ops ∧ mapped.channelOk 0x18 = true ∧ mapped.Allows false .ops ⟨.channel 24, 0⟩ ∧
      (mapped.channel 24).state.language = some 31 ∧ (mapped.language 31).channel ≠ none ∧
      (mapped.language 31).listeners = 0 ∧ redirectsTo mapped 24 = [1] := by decide +kernel

theorem witness_ChanMoveMoves :
    mapped.Takes .ops ∧ mapped.channelOk 0x18 = true ∧ mapped.channelOk 0x02 = true ∧
      mapped.Allows false .ops ⟨.channel 24, 0⟩ ∧ (mapped.channel 24).state.language = some 31 ∧
      (mapped.language 31).channel = some 24 ∧ (mapped.channel 2).state = .free ∧ redirectsTo mapped 24 = [1] := by
  decide +kernel

theorem witness_ChanFloorfillWrites :
    State.reset.Takes .ops ∧ State.reset.channelOk 0x01 = true ∧ (State.reset.channel 1).floorFill = true := by
  decide +kernel

theorem witness_RedirectExpires :
    mapped.run = .hall ∧ (mapped.channel 1).state = .redirect 24 1 ∧ (mapped.channel 24).state = .mapped 31 := by
  decide +kernel

-- Booths

theorem witness_BoothConfigWrites :
    let s := hall [] [(0, lang none none), (31, lang none none)]
    let c : BoothConfig := ⟨some 0, none, .direct, [0, 31], 90⟩
    s.Takes .ops ∧ s.boothOk 0x10 = true ∧ outputOf 0x00 = some c.outputA ∧ outputOf 0xFF = some c.outputB ∧
      modeOf 0x00 = some c.mode ∧ acceptedOf 0x02 [0x1F, 0x00, 0xFF, 0xFF] = some c.accepted ∧
      (0x5A : Byte).toNat = c.turnLimit ∧ s.Allows false .ops ⟨.booth 16, 0⟩ ∧
      ∀ l, c.outputA = some l ∨ c.outputB = some l ∨ l ∈ c.accepted → (s.language l).defined = true := by
  refine ⟨by decide +kernel, by decide +kernel, by decide +kernel, by decide +kernel, by decide +kernel,
    by decide +kernel, by decide +kernel, by decide +kernel, ?_⟩
  intro l h
  have : l = 0 ∨ l = 31 := by simpa [eq_comm] using h
  rcases this with rfl | rfl <;> decide +kernel

/-- A configuration that differs, with a seat on air whose language changes, and takers; without any channel the bindings
agree. -/
theorem witness_BoothConfigWrites_acts :
    let v : Booth := { onAir with takers := [1, 15] }
    let s := hall [(16, v)] [(0, lang (some 16) none), (31, lang none none)]
    let c : BoothConfig := ⟨some 31, none, .direct, [0, 31], 90⟩
    s.Takes .ops ∧ s.boothOk 0x10 = true ∧ (s.booth 16).config ≠ c ∧ (s.booth 16).language ≠ c.outputA ∧
      (s.booth 16).onAirSeat = some 1 ∧ (s.booth 16).takers = [1, 15] ∧ s.TakersRise ∧ s.BindingsAgree := by
  refine ⟨by decide +kernel, by decide +kernel, by decide +kernel, by decide +kernel, by decide +kernel,
    by decide +kernel, takersRise_hall (by decide) _, ?_, ?_⟩
  · intro l c h
    simp only [hall, State.language, tabGet, lang] at h
    split at h
    · cases h
    · split at h <;> cases h
  · intro c l h; exact nomatch h

/-- Each refusal of BOOTH_CONFIG. -/
theorem witness_BoothConfigWrites_refused :
    let s := hall [] [(0, lang none none)]
    let checks (flags booth outA : Byte) : List (Bool × Result) :=
      boothConfigChecks s flags booth outA 0xFF 0x01 0x01 [0x00, 0xFF, 0xFF, 0xFF] 0x0A
    Fails s .ops (checks 0x00 0x11 0x00) .badArg ∧ Fails s .ops (checks 0x00 0x10 0x20) .badArg ∧
      Fails s .ops (checks 0x01 0x10 0x00) .reservationLost ∧ Fails s .ops (checks 0x00 0x10 0x1F) .noRecord := by
  decide +kernel

theorem witness_MicGoesOnAir :
    let s := hall [(16, console)] [(0, lang none (some 24))]
    s.run = .hall ∧ (s.booth 16).link.state = .present ∧ ((s.booth 16).seat 3).state = .off ∧
      (s.booth 16).onAirSeat = none ∧ (s.booth 16).language = some 0 ∧ (s.language 0).owner = none := by
  decide +kernel

/-- A press without a language, one for another's language, and the presses that are ignored. -/
theorem witness_MicGoesOnAir_refused :
    let meets (v : Booth) : Prop :=
      let s := hall [(16, v)] [(0, lang (some 1) none)]
      s.run = .hall ∧ (s.booth 16).link.state = .present ∧ ((s.booth 16).seat 3).state = .off ∧
        (s.booth 16).onAirSeat = none
    meets console ∧ (hall [(16, console)] [(0, lang (some 1) none)]).booth 16 = console ∧ console.language = some 0 ∧
      (lang (some 1) none).owner = some 1 ∧ meets { console with config := { console.config with outputA := none } } ∧
      ({ console with config := { console.config with outputA := none } } : Booth).language = none ∧
      (State.reset.booth 16).link.state ≠ .present ∧
      (({ console with seats := [(3, ⟨.absent, 0, false, 0⟩)] } : Booth).seat 3).state = .absent := by decide +kernel

theorem witness_MicGoesOffAir :
    let s := hall [(16, onAir)] [(0, lang (some 16) (some 24))]
    s.run = .hall ∧ (s.booth 16).link.state = .present ∧ ((s.booth 16).seat 1).onAir = true ∧
      (s.booth 16).handover = none := by decide +kernel

/-- The four cases of a press beside an on-air seat: DIRECT, ANNOUNCED, the requester's and another's. -/
theorem witness_MicHandsOver :
    let meets (v : Booth) : Prop :=
      let s := hall [(16, v)] []
      s.run = .hall ∧ (s.booth 16).link.state = .present ∧ (s.booth 16).onAirSeat = some 1 ∧
        ((s.booth 16).seat 1).onAir = true ∧ ((s.booth 16).seat 3).state = .off
    meets onAir ∧ meets { onAir with config := { onAir.config with mode := .announced } } ∧
      meets { onAir with handover := some ⟨3, 60⟩ } ∧ meets { onAir with handover := some ⟨2, 1⟩ } := by
  decide +kernel

/-- Both keys with mute keys, and without. -/
theorem witness_MuteKeysMove :
    let meets (v : Booth) : Prop :=
      (hall [(1, v)] []).run = .hall ∧ ((hall [(1, v)] []).booth 1).link.state = .present
    meets onAir ∧ (onAir.granted.map (·.mute)) = some true ∧ (onAir.seat 1).state = .live ∧
      ((hall [] []).booth 1).link.state ≠ .present ∧
      meets { onAir with seats := [(3, ⟨.muted, 0, false, 0⟩)] } ∧ meets { onAir with granted := none } := by
  decide +kernel

theorem witness_OutputKeysSelect :
    let taker (accepted : List Nat) : Booth :=
      { console with input := .relay 16, config := { console.config with accepted := accepted } }
    let s := hall [(1, taker [0, 1]), (2, taker [0]), (16, { console with takers := [1, 2] })] []
    s.run = .hall ∧ (s.booth 16).link.state = .present ∧ (s.booth 16).granted = some full ∧ full.outputB = true ∧
      (s.booth 16).selected ≠ .b ∧ (s.booth 16).outputLanguage .b = some 1 ∧ (s.booth 16).onAirSeat = none ∧
      (s.booth 16).language ≠ some 1 ∧ (s.booth 16).takers.Nodup ∧ refusing s 16 1 = [2] := by decide +kernel

/-- The output already selected, a booth that is not PRESENT, and each refusal; an output A without a language, and two outputs
with the same language, on the air and off. -/
theorem witness_OutputKeysSelect_refused :
    let v (a b : Option Nat) (selected : Output) (seats : Tab Seat) : Booth :=
      { console with
        config := { console.config with outputA := a, outputB := b }, selected := selected, seats := seats, takers := [1, 15] }
    let live : Tab Seat := [(1, ⟨.live, 0, false, 0⟩)]
    State.reset.run = .hall ∧ (State.reset.booth 16).link.state ≠ .present ∧ console.link.state = .present ∧
      console.selected = .a ∧ console.granted.map (·.outputB) = some true ∧
      ({ console with granted := none } : Booth).granted.map (·.outputB) ≠ some true ∧
      (v (some 0) none .a []).config.outputB = none ∧ (v none (some 1) .b live).onAirSeat ≠ none ∧
      (v none (some 1) .b []).onAirSeat = none ∧ (v none (some 1) .b []).language = some 1 ∧
      (v none (some 1) .b []).takers.Nodup ∧
      (v (some 1) (some 1) .b []).outputLanguage .a = (v (some 1) (some 1) .b []).language ∧
      (v (some 1) (some 1) .b live).onAirSeat = some 1 ∧ (v (some 1) (some 1) .b live).outputLanguage .a = some 1 ∧
      (v (some 1) (some 1) .b live).language = some 1 := by decide +kernel

theorem witness_OutputKeysSwitch :
    let meets (owner : Option Nat) : Prop :=
      let s := hall [(16, { onAir with takers := [1, 15] })] [(0, lang (some 16) (some 1)), (1, lang owner (some 24))]
      s.run = .hall ∧ (s.booth 16).link.state = .present ∧ (s.booth 16).granted = some full ∧
        (s.booth 16).selected ≠ .b ∧ (s.booth 16).outputLanguage .b = some 1 ∧ (s.booth 16).onAirSeat = some 1 ∧
        (s.booth 16).language = some 0 ∧ (s.language 0).owner = some 16 ∧ (s.language 1).owner = owner ∧
        (s.language 0).channel ≠ (s.language 1).channel ∧ (s.booth 16).takers.Nodup ∧ refusing s 16 1 = [1, 15]
    meets none ∧ meets (some 1) := by decide +kernel

theorem witness_SeatForceTakeActs :
    let meets (v : Booth) (seat : Option Nat) : Prop :=
      let s := hall [(16, v)] [(0, lang none none)]
      s.Takes .ops ∧ s.boothOk 0x10 = true ∧ v.link.state = .present ∧ (v.seat 3).state ≠ .absent ∧
        (s.booth 16).onAirSeat = seat ∧ (s.booth 16).language = some 0 ∧ (s.language 0).owner = none
    meets onAir (some 1) ∧ meets { onAir with seats := [(3, ⟨.muted, 0, false, 0⟩)] } (some 3) ∧ meets console none := by
  decide +kernel

/-- Each refusal of SEAT_FORCE_TAKE, those with an outcome among them, and of SEAT_FORCE_OFF. -/
theorem witness_SeatForceTakeActs_refused :
    let s (v : Booth) (owner : Option Nat) := hall [(16, v)] [(0, lang owner none)]
    let quiet : Booth := { console with config := { console.config with outputA := none } }
    let narrow : Booth := { console with seats := [(3, ⟨.absent, 0, false, 0⟩)] }
    Fails State.reset .ops (seatForceTakeChecks State.reset 0x10 0x04) .badArg ∧
      Fails State.reset .ops (seatForceTakeChecks State.reset 0x10 0x03) .wrongState ∧
      Fails (s narrow none) .ops (seatForceTakeChecks (s narrow none) 0x10 0x03) .wrongState ∧
      (s quiet none).Takes .ops ∧ (s quiet none).boothOk 0x10 = true ∧ ((s quiet none).booth 16).language = none ∧
      ((s quiet none).booth 16).onAirSeat = none ∧ (((s quiet none).booth 16).seat 3).state ≠ .absent ∧
      ((s console (some 1)).booth 16).language = some 0 ∧ ((s console (some 1)).language 0).owner = some 1 ∧
      badBooth State.reset 0x11 = true ∧ badBooth State.reset 0x10 = false ∧
      (State.reset.booth 16).onAirSeat = none := by decide +kernel

theorem witness_SeatForceOffActs :
    let s := hall [(16, onAir)] []
    s.Takes .ops ∧ s.boothOk 0x10 = true ∧ (s.booth 16).onAirSeat = some 1 := by decide +kernel

theorem witness_BoothTimersRunOut :
    let s := hall [(16, { onAir with handover := some ⟨3, 1⟩ })] []
    s.run = .hall ∧ (s.booth 16).handover = some ⟨3, 1⟩ ∧ (s.booth 1).handover = none := by decide +kernel

-- Relay

/-- Booth 16 may relay booth 1, which has language 0; booth 2 speaks nothing booth 16 accepts. -/
def relays (stack : InputStack) (input : Input) : State :=
  hall [(1, console), (2, { console with config := { console.config with outputA := some 31 } }),
    (16, { console with stack := stack, input := input })] []

theorem mayRelay_relays (stack : InputStack) : MayRelay (relays stack .floor) 16 1 :=
  ⟨by decide, rfl, rfl, by show (_ : Nat) ≤ _; exact Nat.le.step Nat.le.refl, 0, rfl,
    by show (0 : Nat) ∈ [0, 1]; decide⟩

theorem not_mayRelay_relays (stack : InputStack) : ¬ MayRelay (relays stack .floor) 16 2 := by
  rintro ⟨_, _, _, _, l, hl, h⟩
  have h1 : some 31 = some l := hl
  cases h1
  have h2 : (31 : Nat) ∈ [0, 1] := h
  exact absurd h2 (by decide)

theorem witness_RelayKeysSelect (k : InputStack) :
    (relays k .floor).run = .hall ∧ ((relays k .floor).booth 16).link.state = .present ∧
      ((relays k .floor).booth 16).granted = some full ∧ full.relay = true ∧
      ((relays k .floor).booth 16).input ≠ .relay 1 ∧ MayRelay (relays k .floor) 16 1 ∧
      ((relays k .floor).booth 16).input ≠ .relay 2 ∧ ¬ MayRelay (relays k .floor) 16 2 :=
  ⟨rfl, rfl, rfl, rfl, fun h => Input.noConfusion (show Input.floor = .relay 1 from h), mayRelay_relays k,
    fun h => Input.noConfusion (show Input.floor = .relay 2 from h), not_mayRelay_relays k⟩

/-- The input held already, and keys at a booth that is not PRESENT, or without the ability. -/
theorem witness_RelayKeysSelect_ignored :
    ((relays .initial .floor).booth 16).input = .floor ∧ ((relays .initial (.relay 1)).booth 16).input = .relay 1 ∧
      ((relays .initial .floor).booth 3).link.state ≠ .present ∧
      ({ console with granted := none } : Booth).granted.map (·.relay) ≠ some true := by decide +kernel

/-- A popped entry that is selected, one that is held already, and one that is refused. -/
theorem witness_PreviousPops :
    (((relays ⟨.relay 1, .floor, .floor, .floor⟩ .floor).booth 16).stack.e1 = .relay 1 ∧
      MayRelay (relays ⟨.relay 1, .floor, .floor, .floor⟩ .floor) 16 1) ∧
    ((relays .initial .floor).booth 16).input = ((relays .initial .floor).booth 16).stack.e1 ∧
    (((relays ⟨.relay 2, .floor, .floor, .floor⟩ .floor).booth 16).stack.e1 = .relay 2 ∧
      ¬ MayRelay (relays ⟨.relay 2, .floor, .floor, .floor⟩ .floor) 16 2) :=
  ⟨⟨rfl, mayRelay_relays _⟩, rfl, rfl, not_mayRelay_relays _⟩

theorem witness_BoothInputSelects :
    (relays .initial .floor).Takes .ops ∧ (relays .initial .floor).boothOk 0x10 = true ∧
      ((relays .initial .floor).booth 16).link.state = .present ∧ ((relays .initial .floor).booth 16).input = .floor ∧
      MayRelay (relays .initial .floor) 16 1 ∧ ¬ MayRelay (relays .initial .floor) 16 2 ∧
      (relays .initial .floor).boothOk 0x03 = true ∧ ((relays .initial .floor).booth 3).link.state ≠ .present :=
  ⟨⟨rfl, rfl⟩, by decide +kernel, rfl, rfl, mayRelay_relays _, not_mayRelay_relays _, by decide +kernel,
    by decide +kernel⟩

-- The booth link

/-- A booth in each link state, an unfitted booth, booth 1, and an answer while the line is in no slot or another's. -/
theorem witness_BoothSlotSends :
    let few : State := { State.reset with profile := { Profile.default with booths := 15 } }
    State.reset.run = .hall ∧ State.reset.boothFitted 16 = true ∧ State.reset.boothFitted 2 = true ∧
      State.reset.boothFitted 1 = true ∧ few.run = .hall ∧ few.boothFitted 16 = false ∧
      ((hall [(1, console)] []).booth 1).link.state = .present ∧ (State.reset.booth 16).link.state ≠ .present ∧
      State.reset.line.map (·.1) ≠ some 16 ∧
      ({ State.reset with line := some (15, .joinProbe) } : State).line.map (·.1) ≠ some 16 := by decide +kernel

/-- The hall with booth 16 as given, in its slot. -/
def inSlot16 (v : Booth) : State := { hall [(16, v)] [] with line := some (16, .joinProbe) }

/-- A booth in negotiation whose grant has been sent `polls` times. -/
def negotiating (polls : Nat) : Booth :=
  { Booth.initial with link := { Link.initial with state := .negotiating, grant := some full, grantPolls := polls } }

/-- The console with seat 1 on air, takers, and some missed polls. -/
def missing (missed : Nat) : Booth := { onAir with link := { onAir.link with missed := missed }, takers := [1, 2] }

/-- An ABSENT booth, a restarted console and a NEGOTIATING booth, each with a possible and an impossible advertisement. -/
theorem witness_AdvertiseJudged :
    (inSlot16 Booth.initial).Awaits 16 ∧ (inSlot16 Booth.initial).boothFitted 16 = true ∧
      ((inSlot16 Booth.initial).booth 16).link.state = .absent ∧ (1 ≤ full.seats ∧ full.seats ≤ 3) ∧
      3 < ({ full with seats := 4 } : Abilities).seats ∧ ({ full with seats := 0 } : Abilities).seats = 0 ∧
      (inSlot16 (missing 0)).Awaits 16 ∧ ((inSlot16 (missing 0)).booth 16).link.state = .present ∧
      ((inSlot16 (missing 0)).booth 16).onAirSeat ≠ none ∧ ((inSlot16 console).booth 16).onAirSeat = none ∧
      ((inSlot16 (missing 0)).booth 16).takers.Nodup ∧ 16 ∉ ((inSlot16 (missing 0)).booth 16).takers ∧
      (inSlot16 (negotiating 1)).Awaits 16 ∧ ((inSlot16 (negotiating 1)).booth 16).link.state = .negotiating := by
  decide +kernel

theorem witness_GrantAckJoins :
    let s := inSlot16 (negotiating 2)
    s.Awaits 16 ∧ s.boothFitted 16 = true ∧ (s.booth 16).link.state = .negotiating ∧
      (s.booth 16).link.grant = some full ∧ { full with seats := 2 } ≠ full := by decide +kernel

/-- A repeated and a new sequence, as many events as granted and more. -/
theorem witness_StatusReplyTaken :
    let s := inSlot16 console
    s.Awaits 16 ∧ s.boothFitted 16 = true ∧ (s.booth 16).link.state = .present ∧
      (s.booth 16).link.grant = some full ∧
      ([.mic 1, .outputB, .previous, .floorSel] : List KeyEvent).length ≤ full.events ∧
      (s.booth 16).link.lastSequence = 1 ∧ (0 : Fin 2) ≠ 1 ∧ full.events < (List.replicate 5 KeyEvent.outputA).length := by
  decide +kernel

/-- A booth in each link state, with too few and with enough missed polls. -/
theorem witness_MissedPollsLoseBooth :
    let s (missed : Nat) := inSlot16 (missing missed)
    (s 1).Awaits 16 ∧ (s 1).boothFitted 16 = true ∧ ((s 1).booth 16).link.state = .present ∧
      ((s 1).booth 16).link.missed < 2 ∧ 2 ≤ ((s 2).booth 16).link.missed ∧ ((s 2).booth 16).takers.Nodup ∧
      16 ∉ ((s 2).booth 16).takers ∧ ((inSlot16 Booth.initial).booth 16).link.state = .absent ∧
      (inSlot16 (negotiating 1)).Awaits 16 ∧ ((inSlot16 (negotiating 2)).booth 16).link.grantPolls = 2 ∧
      ((inSlot16 (negotiating 1)).booth 16).link.grantPolls < 2 := by decide +kernel

theorem witness_FaultWaitsEnd :
    let s := hall [(16, { Booth.initial with link := { Link.initial with state := .faultWait, waitRemaining := 1 } })] []
    s.run = .hall ∧ (s.booth 16).link.state = .faultWait ∧ (s.booth 1).link.state ≠ .faultWait := by decide +kernel

-- The feed link, the clock, reading, the ports

theorem witness_FeedTransmits : State.reset.run = .hall := rfl

theorem witness_ClockCommandsWrite :
    State.reset.Takes .ops ∧ State.reset.Takes .deskB ∧ State.reset.day ≤ 65535 := by decide +kernel

theorem witness_SecondEventCounts :
    State.reset.run = .hall ∧ State.reset.second < 59 ∧ 59 ≤ ({ State.reset with second := 59 } : State).second := by
  decide +kernel

theorem witness_MinuteTickCounts : State.reset.run = .hall := rfl

theorem witness_StatusReports :
    State.reset.Takes .ops ∧ State.reset.Takes .deskA ∧ State.reset.Takes .deskB ∧
      ({ State.reset with run := .install } : State).run = .install ∧
      (({ State.reset with run := .install } : State).port .ops).inHand = none := by decide +kernel

/-- A settlement of account 1,023, generation 255. -/
def settlement : Settlement := ⟨⟨1023, 255⟩, 7, 0, 0, 0, 0, 0, 0, false, .a, ⟨0, 0⟩⟩

/-- An OPEN account with a tariff that hires two receivers. -/
def hire (entries : List Entry) : OpenAccount :=
  ⟨7, ⟨65535, 1, 0, 0, 2000, 20000, 2⟩, 0, entries, 0, 0, false, ⟨0, 0⟩, .a, 0⟩

theorem witness_ReadAnswers :
    let s : State := { State.reset with bufferA := some settlement }
    let u : State := { State.reset with bufferB := some settlement }
    s.Takes .deskB ∧ (0x03 : Byte).toNat * 256 + (0xFF : Byte).toNat ≤ 1023 ∧ s.bufferA = some settlement ∧
      settlement.account = ⟨(0x03 : Byte).toNat * 256 + (0xFF : Byte).toNat, (0xFF : Byte).toNat⟩ ∧
      u.bufferB = some settlement ∧ u.bufferA = none ∧ State.reset.bufferA = none ∧ State.reset.bufferB = none ∧
      s.Takes .ops ∧ Port.deskB = deskOf .b ∧
      (0xFF : Byte).toNat * 65536 + (0xFF : Byte).toNat * 256 + (0xFE : Byte).toNat = 16777214 := by
  decide +kernel

theorem witness_ReadReserveReserves :
    let s : State := { State.reset with accounts := [(1023, ⟨255, some (hire [])⟩)] }
    s.Takes .deskA ∧ s.account ((0x03 : Byte).toNat * 256 + (0xFF : Byte).toNat) = ⟨(0xFF : Byte).toNat, some (hire [])⟩ ∧
      s.bufferA = none ∧ s.bufferB = none ∧ (0x0C : Byte).toNat ∉ [0, 1, 2, 5, 6] := by decide +kernel

/-- Selectors out of range, unknown kinds, and references that name a settlement and nothing. -/
theorem witness_ReadAnswers_refused :
    let s : State := { State.reset with bufferA := some settlement }
    State.reset.Takes .deskA ∧ badSelector .deskA 0x00 0 0 0x20 = true ∧ badSelector .deskA 0x03 0 0x10 0 = true ∧
      badSelector .ops 0x0A 0x02 0 0 = true ∧ badSelector .deskA 0x0A 0x02 0 0 = false ∧
      badSelector .ops 0x0C 0 0 0 = true ∧ s.Takes .deskA ∧ s.bufferA = some settlement ∧
      (State.reset.account 1023).account = none ∧ 2 < (0x03 : Byte).toNat := by decide +kernel

theorem witness_ReserveDropDrops : State.reset.Takes .ops ∧ State.reset.Takes .deskB := by decide +kernel

/-- A reservation that stands after a command. -/
theorem witness_ReserveDropDrops_law :
    ∃ t, exec (.readReserve .ops 0 [0x06, 0x00, 0x00, 0x07]) State.reset = .next t ∧
      (t.port .ops).reservation = some ⟨.tariff 7, 0⟩ := ⟨_, rfl, by decide +kernel⟩

theorem witness_ReportClearClears : State.reset.Takes .ops := by decide +kernel

theorem witness_RefusedCommandsChangeNothing :
    State.reset.Takes .deskA ∧ commandOf 0x43 = none ∧ commandOf 0x10 = some .langDefine ∧
      CommandName.langDefine.permitted .deskA = false ∧ commandOf 0x33 = some .settlementTake ∧
      CommandName.settlementTake.permitted .deskA = true ∧ CommandName.settlementTake.lengthOk 1 = false ∧
      ({ State.reset with run := .install } : State).run = .install ∧
      (({ State.reset with run := .install } : State).port .ops).inHand = none ∧
      (0x10 : Byte).toNat ∉ [0x01, 0x22, 0x23] ∧
      CommandName.langDefine ∉ [CommandName.status, .profileRead, .profileWrite] := by decide +kernel

theorem witness_FrameReceivedIsCommand :
    State.reset.run ≠ .off ∧ (State.reset.port .ops).framer = .hunting ∧ (State.reset.port .ops).received = [] ∧
      (State.reset.port .ops).inHand = none ∧ (State.reset.port .ops).notices = [] ∧
      (List.replicate 250 (0xA5 : Byte)).length ≤ 250 := by decide +kernel

/-- A port with a command in hand, whose receive buffer holds `received`. -/
def taken (sending : OutFrame) (received : List (List Byte)) : State :=
  { State.reset with
    opsPort := { State.reset.opsPort with
      sending := some sending, inHand := some ⟨0, 0x01, ⟨.ok, []⟩, 0, false⟩, received := received } }

/-- A command that just fits behind the one in hand, one that does not, and one taken after a reply. -/
theorem witness_FrameReceivedIsCommand_waits :
    let notice := OutFrame.notice (.slotLeft 31 none) false
    let s (n : Nat) := taken notice [List.replicate n 0x00]
    let u := taken (.reply 0 0x01 ⟨.ok, []⟩) [(frameBytes 0x01 0x2A 0x01 []).tail]
    (s 250).run ≠ .off ∧ ((s 250).port .ops).framer = .hunting ∧ ((s 250).port .ops).inHand.isSome = true ∧
      ((s 250).port .ops).chooseFrame = (s 250).port .ops ∧
      (((s 250).port .ops).received.map List.length).sum + 0 + 6 ≤ 256 ∧
      ¬ (((s 251).port .ops).received.map List.length).sum + 0 + 6 ≤ 256 ∧
      (u.port .ops).sending = some (.reply 0 0x01 ⟨.ok, []⟩) ∧
      (u.port .ops).received = [(frameBytes 0x01 0x2A 0x01 []).tail] ∧ commandOf 0x01 = some .status := by
  decide +kernel

theorem witness_BadFramesAreDiscarded :
    State.reset.run ≠ .off ∧ (State.reset.port .ops).framer = .hunting ∧ (State.reset.port .ops).received = [] ∧
      (State.reset.port .ops).chooseFrame = State.reset.port .ops ∧ (0x02 : Byte) ≠ 0x01 ∧
      (({ State.reset with opsPort := { State.reset.opsPort with framer := .expectLen false } } : State).port .ops).framer ≠
        .hunting ∧
      (0x00 : Byte) ++ (0x00 : Byte) ≠ crc16 [0x03, 0x01, 0x2A, 0x01] ∧ (0x02 : Byte).toNat < 3 ∧
      253 < (0xFE : Byte).toNat ∧
      ((frameBytes 0x01 0x2A 0x01 []).map fun b => (⟨b, b ≠ 0xA5⟩ : LineByte)).any (fun b => b.stop = false) = true := by
  decide +kernel

/-- A port whose line carries `sending`, with one notice queued and a reply `ahead` of which notices wait. -/
def busyPort (sending : Option OutFrame) (ahead : Nat) : State :=
  { State.reset with
    opsPort := { State.reset.opsPort with
      sending := sending
      notices := [.slotLeft 31 none]
      inHand := some ⟨0, 0x01, ⟨.ok, []⟩, ahead, false⟩ } }

/-- A notice and a reply that ends, an idle line, a reply that waits and one that does not. -/
theorem witness_NextFrameIsChosen :
    ((busyPort (some (.notice (.slotLeft 0 none) true)) 0).port .ops).sending = some (.notice (.slotLeft 0 none) true) ∧
      ((busyPort (some (.notice (.slotLeft 0 none) true)) 1).port .ops).inHand =
        some ⟨0, 0x01, ⟨.ok, []⟩, 1, false⟩ ∧
      (State.reset.port .ops).sending = none ∧ (State.reset.port .ops).notices = [] ∧
      ((busyPort (some (.reply 0 0x01 ⟨.ok, []⟩)) 0).port .ops).sending = some (.reply 0 0x01 ⟨.ok, []⟩) ∧
      ((busyPort (some (.reply 0 0x01 ⟨.ok, []⟩)) 0).port .ops).received = [] ∧ State.reset.run ≠ .off ∧
      ((busyPort (some (.notice (.slotLeft 0 none) true)) 1).port .ops).notices.length ≤ 16 ∧
      (State.reset.port .ops).inHand = none ∧ (State.reset.port .ops).hold = false ∧
      ((busyPort none 0).port .ops).sending = none := by
  decide +kernel

-- Receivers, accounts, settlements

theorem witness_TariffAndFilterWrite :
    State.reset.Takes .ops ∧ (0xF0 : Byte).toNat ≤ 240 ∧ State.reset.Allows false .ops ⟨.tariff 7, 0⟩ ∧
      ((0x80 : Byte) ++ (0x00 : Byte) ++ (0x00 : Byte) ++ (0x01 : Byte) : BitVec 32) = 0x80000001#32 ∧
      ∀ i, i < 32 → (0x80000001#32).getLsbD i = true → (0x20 : Byte).toNat + i ≤ 63 := by decide +kernel

/-- Each refusal of TARIFF_WRITE and FILTER_WRITE. -/
theorem witness_TariffAndFilterWrite_refused :
    Fails State.reset .ops (tariffWriteChecks State.reset 0x00 0x08 0x3C 0x01) .badArg ∧
      Fails State.reset .ops (tariffWriteChecks State.reset 0x01 0x07 0xF0 0x04) .reservationLost ∧
      Fails State.reset .ops (filterWriteChecks 0x07 0x00 0x00 0 0x01 0x07) .badArg ∧
      Fails State.reset .ops (filterWriteChecks 0x07 0x00 0x21 0x80000000#32 0x00 0x07) .badArg := by decide +kernel

/-- A receiver ISSUED in language 31 on account 1,023/255 at rack A. -/
def issued : ReceiverState := .issued ⟨1023, 255⟩ 31 .a ⟨0, 0⟩

/-- A hall with receivers 0 (STOCK) and 1 (`state`), and slot 31 of rack A as given. -/
def pool (state : ReceiverState) (slot : Slot) (bus : Bus) : State :=
  { State.reset with
    receivers := [(0, some ⟨1, .stock, 40, 0⟩), (1, some ⟨16777214, state, 100, 65535⟩)]
    rackA := ⟨[(31, slot)], [], [], bus⟩ }

/-- A slot with the ident of a serial. -/
def docked (state : SlotState) (serial : Nat) : Slot := ⟨state, some ⟨serial, 30, .hired, 24⟩, none, none, false, false⟩

theorem witness_PoolCommandsWrite :
    let s := pool .service (docked .occupied 16777213) .idle
    s.Takes .ops ∧ s.Takes .deskA ∧ s.bySerial 16777212 = none ∧ s.receiver 2 = none ∧
      (∀ j, j < 2 → s.receiver j ≠ none) ∧ s.slotFitted .a (0x1F : Byte).toNat = true ∧
      (s.slot .a 31).state = .occupied ∧ (s.slot .a 31).ident = some ⟨16777213, 30, .hired, 24⟩ ∧
      s.bySerial 16777213 = none ∧
      s.bySerial ((0x00 : Byte).toNat * 65536 + (0x00 : Byte).toNat * 256 + (0x01 : Byte).toNat) =
        some (0, ⟨1, .stock, 40, 0⟩) ∧ s.receiver 0 = some ⟨1, .stock, 40, 0⟩ ∧
      s.bySerial ((0xFF : Byte).toNat * 65536 + (0xFF : Byte).toNat * 256 + (0xFE : Byte).toNat) =
        some (1, ⟨16777214, .service, 100, 65535⟩) ∧ s.receiver 1 = some ⟨16777214, .service, 100, 65535⟩ := by
  decide +kernel

/-- Each refusal of the pool commands but LIMIT. -/
theorem witness_PoolCommandsWrite_refused :
    let s := pool issued (docked .occupied 16777214) .idle
    let u := pool issued (docked .occupied 0) .idle
    Fails s .ops (receiverEnrollChecks s 16777215) .badArg ∧ Fails s .ops (receiverEnrollChecks s 1) .exists ∧
      Fails s .deskA (enrollSlotChecks s .a 0x20) .badArg ∧ Fails s .deskA (enrollSlotChecks s .a 0x1E) .wrongState ∧
      Fails u .deskA (enrollSlotChecks u .a 0x1F) .badArg ∧ Fails s .deskA (enrollSlotChecks s .a 0x1F) .exists ∧
      Fails s .ops (receiverChecks s 0) .badArg ∧ Fails s .ops (receiverChecks s 2) .noRecord ∧
      Fails s .ops (receiverChecks s 16777214) .wrongState := by decide +kernel

/-- A table with the same record at each of the numbers from `k` on. -/
theorem tabGet_filled {α : Type} (d v : α) (n k i : Nat) (h : k ≤ i) (h' : i < k + n) :
    tabGet d ((List.range' k n).map fun j => (j, v)) i = v := by
  induction n generalizing k with
  | zero => omega
  | succ n ih =>
    simp only [List.range'_succ, List.map_cons, tabGet]
    split
    · rfl
    · exact ih (k + 1) (by omega) (by omega)

/-- A full pool, each record with serial 1, and a unit that is not enrolled. -/
def crowded : State :=
  { pool .stock (docked .occupied 2) .idle with
    receivers := (List.range' 0 4096).map fun i => (i, some ⟨1, .stock, 0, 0⟩) }

theorem crowded_bySerial (n : Nat) (h : n ≠ 1) : crowded.bySerial n = none := by
  have : ∀ l : List Nat, findSerial n (l.map fun i => (i, some ⟨1, .stock, 0, 0⟩)) = none := by
    intro l
    induction l with
    | nil => rfl
    | cons j l ih => simpa [findSerial, Ne.symm h] using ih
  exact this _

theorem crowded_poolFull : poolFull crowded = true := by
  refine decide_eq_true fun i hi => ?_
  have : crowded.receiver i = some ⟨1, .stock, 0, 0⟩ :=
    tabGet_filled none _ 4096 0 i (Nat.zero_le i) (by have := List.mem_range.mp hi; omega)
  rw [this]
  exact Option.some_ne_none _

/-- LIMIT of the two enrolment commands. -/
theorem witness_PoolCommandsWrite_limit :
    Fails crowded .ops (receiverEnrollChecks crowded 2) .limit ∧
      Fails crowded .deskA (enrollSlotChecks crowded .a 0x1F) .limit := by
  have slot : crowded.slot .a 31 = docked .occupied 2 := by decide +kernel
  refine ⟨⟨⟨rfl, rfl⟩, ?_⟩, ⟨rfl, rfl⟩, ?_⟩
  · simp [receiverEnrollChecks, firstFailure, badSerial, crowded_bySerial, crowded_poolFull]
  · have fitted : badSlot crowded .a 31#8 = false := by decide +kernel
    simp [enrollSlotChecks, firstFailure, badSerial, crowded_bySerial, crowded_poolFull, fitted, slot, docked]

/-- A group of filters that matches: filters 0 and 1, chained, select the first byte and the last of 16. -/
theorem witness_AccountsOpen_group :
    let credential : List Byte := List.replicate 15 0x31 ++ [0x39]
    let s : State :=
      { State.reset with
        filters := [(0, ⟨true, 0, 1, 0, 0, true, 0⟩), (1, ⟨true, 15, 1, crc16 [0x31, 0x39], 0x39, false, 7⟩)] }
    IsGroup s 0 1 ∧ GroupMatches s 0 1 credential ∧ IsGroup s 2 2 ∧ ¬ GroupMatches s 2 2 credential ∧
      s.classify credential = 7 := by
  refine ⟨⟨by decide, by decide, .inl rfl, ?_, .inr (by decide)⟩, ⟨?_, by decide +kernel, 0, by decide, by decide +kernel,
    ?_, by decide +kernel⟩, ⟨by decide, by decide, .inr (by decide), ?_, .inr (by decide)⟩, ?_, by decide +kernel⟩
  · intro j _ h; have : j = 0 := by omega
    subst this; decide
  · intro j _ h
    have : j = 0 ∨ j = 1 := by omega
    rcases this with rfl | rfl <;>
      refine ⟨by decide, by decide, fun i hi hb => ?_⟩ <;>
      · have : i = 0 := by revert hb; revert i; decide +kernel
        subst this; decide
  · intro j hj
    by_cases h : j < 32
    · revert hj; revert j; decide +kernel
    · exact BitVec.getLsbD_of_ge _ _ (Nat.not_lt.mp h)
  · intro j h1 h2; omega
  · intro h; exact absurd ((h.1 2 (by decide) (by decide)).1) (by decide)

theorem witness_AccountsOpen :
    let s : State := { State.reset with accounts := [(0, ⟨255, some (hire [])⟩)] }
    let credential : List Byte := List.replicate 64 0x00
    let known : State := { State.reset with accounts := [(1023, ⟨0, some { hire [] with digest := crc16 credential }⟩)] }
    s.Takes .deskA ∧ s.byDigest (crc16 credential) = none ∧ s.canOpen 1 = true ∧ s.canOpen 0 = false ∧
      known.Takes .deskB ∧
      known.byDigest (crc16 credential) = some (⟨1023, 0⟩, { hire [] with digest := crc16 credential }) := by
  decide +kernel

/-- A hall whose every account is OPEN with digest 0. -/
def booked : State :=
  { State.reset with accounts := (List.range' 0 1024).map fun i => (i, ⟨0, some (hire [])⟩) }

theorem booked_byDigest (d : Word16) (h : (hire []).digest ≠ d) : booked.byDigest d = none := by
  have : ∀ l : List Nat, findDigest d (l.map fun i => (i, ⟨0, some (hire [])⟩)) = none := by
    intro l
    induction l with
    | nil => rfl
    | cons j l ih => simpa [findDigest, h] using ih
  exact this (List.range' 0 1024)

/-- A holder who is not known, with a record to open and with none. -/
theorem witness_AccountsOpen_limit :
    let credential : List Byte := List.replicate 15 0x00 ++ [0x01]
    State.reset.Takes .ops ∧ State.reset.byDigest (crc16 credential) = none ∧ booked.Takes .deskB ∧
      booked.byDigest (crc16 credential) = none ∧ ∀ i, i ≤ 1023 → booked.canOpen i = false := by
  refine ⟨by decide +kernel, by decide +kernel, ⟨rfl, rfl⟩, booked_byDigest _ (by decide +kernel), fun i hi => ?_⟩
  have : booked.account i = ⟨0, some (hire [])⟩ := tabGet_filled _ _ 1024 0 i (Nat.zero_le i) (by omega)
  simp [State.canOpen, this]

theorem witness_AccountAdjustAdds :
    let s : State := { State.reset with accounts := [(1023, ⟨255, some (hire [])⟩)] }
    s.Takes .deskB ∧ s.Allows false .deskB ⟨.account 1023, 255⟩ ∧
      s.account ((0x03 : Byte).toNat * 256 + (0xFF : Byte).toNat) = ⟨(0xFF : Byte).toNat, some (hire [])⟩ := by
  decide +kernel

/-- Each refusal of ACCOUNT_ADJUST; a reservation of another generation does not do. -/
theorem witness_AccountAdjustAdds_refused :
    let s : State :=
      { State.reset with
        accounts := [(1023, ⟨255, some (hire [])⟩)]
        deskBPort := { State.reset.deskBPort with reservation := some ⟨.account 1023, 254⟩ } }
    Fails s .deskB (accountAdjustChecks s .deskB 0x00 ⟨1024, 0⟩) .badArg ∧
      Fails s .deskB (accountAdjustChecks s .deskB 0x01 ⟨1023, 255⟩) .reservationLost ∧
      Fails s .deskB (accountAdjustChecks s .deskB 0x01 ⟨1023, 254⟩) .noRecord := by decide +kernel

/-- Each refusal of ACCOUNT_CLOSE, and an EMPTY buffer of a fitted rack and of one that is not. -/
theorem witness_SettlementsAreMadeAndTaken_refused :
    let s (entries : List Entry) : State :=
      { State.reset with accounts := [(1023, ⟨255, some (hire entries)⟩)], bufferB := some settlement }
    let one : State := { State.reset with profile := { Profile.default with racks := 1 } }
    Fails (s []) .deskB (accountCloseChecks (s []) .b 0x00 ⟨1024, 0⟩) .badArg ∧
      Fails one .deskB (accountCloseChecks one .b 0x01 ⟨1023, 255⟩) .wrongState ∧
      Fails (s []) .deskB (accountCloseChecks (s []) .b 0x01 ⟨1023, 255⟩) .reservationLost ∧
      Fails (s []) .deskB (accountCloseChecks (s []) .b 0x00 ⟨1023, 254⟩) .noRecord ∧
      Fails (s [⟨0, false⟩]) .deskB (accountCloseChecks (s [⟨0, false⟩]) .b 0x00 ⟨1023, 255⟩) .holdsUnits ∧
      Fails (s []) .deskB (accountCloseChecks (s []) .b 0x00 ⟨1023, 255⟩) .settleBusy ∧
      one.Takes .deskB ∧ one.buffer .b = none ∧ one.rackFitted .b = false ∧ one.buffer .a = none := by decide +kernel

theorem witness_SettlementsAreMadeAndTaken :
    let s : State := { State.reset with accounts := [(1023, ⟨255, some (hire [])⟩)] }
    let full : State := { State.reset with bufferB := some settlement }
    s.Takes .deskB ∧ s.rackFitted .b = true ∧ s.Allows false .deskB ⟨.account 1023, 255⟩ ∧
      s.account 1023 = ⟨255, some (hire [])⟩ ∧ (hire []).entries = [] ∧ s.buffer .b = none ∧
      full.Takes .deskB ∧ full.buffer .b = some settlement ∧ ∀ n, n ≤ 31 → (full.slot .b n).state ≠ .held := by
  decide +kernel

/-- Receiver 1 is out in language 31 on account 1,023/255, whose entries are given; its unit is in slot 31 of rack A. -/
def out (state : ReceiverState) (entries : List Entry) (slot : Slot) (bus : Bus) : State :=
  { pool state slot bus with
    accounts := [(1023, ⟨255, some (hire entries)⟩)]
    languages := [(31, { lang none (some 24) with listeners := 1 })] }

/-- A HELD return at a FULL buffer, which the taking of the settlement resumes. -/
theorem witness_SettlementsAreMadeAndTaken_resumes :
    let held : Slot := { docked .held 16777214 with returned := some ⟨16777215, 65535⟩ }
    let s : State := { out issued [⟨1, true⟩] held .idle with bufferA := some settlement }
    let emptied : State := { s with bufferA := none }
    s.Takes .deskA ∧ s.buffer .a = some settlement ∧ emptied.buffer .a = none ∧ (emptied.slot .a 31).state = .held ∧
      (emptied.slot .a 31).ident = some ⟨16777214, 30, .hired, 24⟩ ∧
      (emptied.slot .a 31).returned = some ⟨16777215, 65535⟩ ∧
      emptied.bySerial 16777214 = some (1, ⟨16777214, issued, 100, 65535⟩) ∧
      emptied.account 1023 = ⟨255, some (hire [⟨1, true⟩])⟩ := by decide +kernel

/-- Each refusal of ISSUE. -/
theorem witness_IssueAccepted_refused :
    let s (entries : List Entry) (battery : Nat) (queue : List QueuedIssue) : State :=
      let base := pool .stock (docked .occupied 16777214) .idle
      { base with
        accounts := [(1023, ⟨255, some (hire entries)⟩)]
        languages := [(31, lang none (some 24))]
        profile := { Profile.default with batteryThreshold := battery }
        rackA := { base.rackA with queue := queue } }
    let checks (s : State) (g : Nat) (slot lang : Byte) := issueChecks s .a ⟨1023, g⟩ slot lang
    let busy := s [] 30 (List.replicate 4 ⟨0, ⟨0, 0⟩, 0, none⟩)
    Fails (s [] 30 []) .deskA (checks (s [] 30 []) 255 0x20 0x1F) .badArg ∧
      Fails (s [] 30 []) .deskA (checks (s [] 30 []) 254 0x1F 0x1F) .noRecord ∧
      Fails (s [⟨0, true⟩, ⟨2, false⟩] 30 []) .deskA (checks (s [⟨0, true⟩, ⟨2, false⟩] 30 []) 255 0x1F 0x1F) .limit ∧
      Fails (s [] 30 []) .deskA (checks (s [] 30 []) 255 0x1E 0x1F) .wrongState ∧
      Fails (s [] 31 []) .deskA (checks (s [] 31 []) 255 0x1F 0x1F) .lowBattery ∧
      Fails (s [] 30 []) .deskA (checks (s [] 30 []) 255 0x1F 0x1E) .noChannel ∧
      Fails busy .deskA (checks busy 255 0x1F 0x1F) .queueFull := by decide +kernel

theorem witness_IssueAccepted :
    let s : State :=
      { pool .stock (docked .occupied 16777214) .idle with
        accounts := [(1023, ⟨255, some (hire [⟨0, true⟩])⟩)]
        languages := [(31, lang none (some 24))]
        profile := { Profile.default with batteryThreshold := 30 } }
    s.Takes .deskA ∧ s.slotFitted .a 31 = true ∧ s.account 1023 = ⟨255, some (hire [⟨0, true⟩])⟩ ∧
      (hire [⟨0, true⟩]).entries.length < (hire []).snapshot.issueLimit ∧ (s.slot .a 31).state = .occupied ∧
      (s.slot .a 31).ident = some ⟨16777214, 30, .hired, 24⟩ ∧
      s.bySerial 16777214 = some (1, ⟨16777214, .stock, 100, 65535⟩) ∧ s.profile.batteryThreshold ≤ 30 ∧
      (s.language 31).defined = true ∧ (s.language 31).channel ≠ none ∧ (s.rack .a).queue.length < 4 ∧
      (s.rack .a).bus = .idle ∧ (pool .stock (docked .occupied 16777214) (.busy (.probe 0))).rackA.bus ≠ .idle := by
  decide +kernel

/-- A loss that leaves another entry, and one that closes. -/
theorem witness_LossIsCharged :
    let meets (entries : List Entry) : Prop :=
      let s := out issued entries .initial .idle
      s.Takes .ops ∧ s.Takes .deskB ∧ s.rackFitted .b = true ∧
        s.bySerial 16777214 = some (1, ⟨16777214, issued, 100, 65535⟩) ∧ s.returnInHand 16777214 = false ∧
        s.account 1023 = ⟨255, some (hire entries)⟩ ∧ s.buffer .a = none
    meets [⟨0, true⟩, ⟨1, true⟩] ∧ meets [⟨1, true⟩] := by decide +kernel

/-- Each refusal of LOSS_DECLARE: an unknown serial, a record that is not ISSUED, a return in hand, a FULL buffer. -/
theorem witness_LossIsCharged_refused :
    let s : State := { out issued [⟨1, true⟩] .initial .idle with bufferA := some settlement }
    let one : State := { s with profile := { Profile.default with racks := 1 } }
    let held := out issued [⟨1, true⟩] (docked .held 16777214) .idle
    Fails s .ops (lossDeclareChecks s .ops 16777215) .badArg ∧
      Fails one .deskB (lossDeclareChecks one .deskB 16777214) .wrongState ∧
      Fails s .ops (lossDeclareChecks s .ops 2) .noRecord ∧ Fails s .ops (lossDeclareChecks s .ops 1) .wrongState ∧
      Fails held .ops (lossDeclareChecks held .ops 16777214) .wrongState ∧
      Fails s .ops (lossDeclareChecks s .ops 16777214) .settleBusy ∧
      firstFailure (lossDeclareChecks s .deskB 16777214) = none := by decide +kernel

/-- The head issue of rack A's queue, in slot 31. -/
def head (preset : Option Nat) : QueuedIssue := ⟨31, ⟨1023, 255⟩, 31, preset⟩

/-- A hall with the head issue in progress. -/
def issuing (preset : Option Nat) (bus : Bus) : State :=
  let s :=
    out (.pending ⟨1023, 255⟩ 31 .a) [⟨1, false⟩]
      { docked .issuing 16777214 with issue := some ⟨⟨1023, 255⟩, 31⟩ } bus
  { s with rackA := { s.rackA with queue := [head preset] } }

/-- A FAULTED slot, a reset with no issue and with one queued, and a draining bus. -/
theorem witness_SlotCommandsClear :
    let s := pool .stock { Slot.initial with state := .faulted } .idle
    let u := issuing none (.busy (.preset 31 24 []))
    s.Takes .deskA ∧ s.slotFitted .a (0x1F : Byte).toNat = true ∧ (s.slot .a 31).state = .faulted ∧
      s.rackFitted .a = true ∧ 0 < s.profile.slots ∧ (s.rack .a).queue = [] ∧ u.Takes .deskA ∧
      (u.rack .a).queue = [head none] ∧ (u.slot .a 31).issue = some ⟨⟨1023, 255⟩, 31⟩ ∧
      ((u.slot .a 31).ident.bind fun d => u.bySerial d.serial) =
        some (1, ⟨16777214, .pending ⟨1023, 255⟩ 31 .a, 100, 65535⟩) ∧
      ((pool .stock .initial (.draining (.ident 31))).rack .a).bus = .draining (.ident 31) := by decide +kernel

/-- A slot that is not fitted, one that is not FAULTED, and a rack that is not fitted. -/
theorem witness_SlotCommandsClear_refused :
    let one : State := { State.reset with profile := { Profile.default with racks := 1 } }
    State.reset.Takes .deskA ∧ one.Takes .deskB ∧ badSlot State.reset .a 0x20 = true ∧ badSlot one .b 0x00 = true ∧
      badSlot State.reset .a 0x1F = false ∧ (State.reset.slot .a 31).state ≠ .faulted ∧ one.rackFitted .b = false := by
  decide +kernel

-- The rack engines

theorem witness_ScanTracksPresence :
    let idle := pool .stock .initial .idle
    let s := pool .stock (docked .departing 1) (.busy (.probe 31))
    idle.run = .hall ∧ (idle.rack .a).bus = .idle ∧ idle.rackFitted .a = true ∧ (idle.rack .a).queue = [] ∧
      (∀ n, n ≤ 31 → (idle.slot .a n).state ≠ .identifying ∧ (idle.slot .a n).state ≠ .returning) ∧
      s.InFlight .a (.probe 31) ∧ (s.rack .a).bus ≠ .idle ∧ (s.slot .a 31).state = .departing := by decide +kernel

/-- The confirmed departure of a HELD unit and of one whose issue is in progress. -/
theorem witness_ScanTracksPresence_missed :
    let held := out issued [⟨1, true⟩] { docked .held 16777214 with returned := some ⟨0, 0⟩, miss := true } (.busy (.probe 31))
    let u := out (.pending ⟨1023, 255⟩ 31 .a) [⟨1, false⟩]
      { docked .issuing 16777214 with issue := some ⟨⟨1023, 255⟩, 31⟩, miss := true } (.busy (.probe 31))
    held.InFlight .a (.probe 31) ∧ held.rackFitted .a = true ∧ (held.slot .a 31).miss = true ∧
      (held.slot .a 31).state = .held ∧ (held.slot .a 31).ident = some ⟨16777214, 30, .hired, 24⟩ ∧
      held.bySerial 16777214 = some (1, ⟨16777214, issued, 100, 65535⟩) ∧
      u.InFlight .a (.probe 31) ∧ (u.slot .a 31).miss = true ∧ (u.slot .a 31).state = .issuing ∧
      (u.slot .a 31).issue = some ⟨⟨1023, 255⟩, 31⟩ ∧
      u.bySerial 16777214 = some (1, ⟨16777214, .pending ⟨1023, 255⟩ 31 .a, 100, 65535⟩) ∧
      u.account 1023 = ⟨255, some (hire [⟨1, false⟩])⟩ := by decide +kernel

/-- An ident that finds each kind of record, and a repair of each kind. -/
theorem witness_UnitsAreIdentified :
    let found (state : ReceiverState) : State :=
      pool state (docked .identifying 16777214) (.busy (.markRepair 31))
    (pool .stock { Slot.initial with state := .identifying } (.busy (.ident 31))).InFlight .a (.ident 31) ∧
      (found .stock).InFlight .a (.markRepair 31) ∧
      ((found .stock).slot .a 31).ident = some ⟨16777214, 30, .hired, 24⟩ ∧
      (found .service).bySerial 16777214 = some (1, ⟨16777214, .service, 100, 65535⟩) ∧
      (found (.lost ⟨1023, 255⟩ .a)).bySerial 16777214 =
        some (1, ⟨16777214, .lost ⟨1023, 255⟩ .a, 100, 65535⟩) ∧
      (found (.pending ⟨1023, 255⟩ 31 .a)).bySerial 16777214 =
        some (1, ⟨16777214, .pending ⟨1023, 255⟩ 31 .a, 100, 65535⟩) ∧
      (found issued).bySerial 16777214 = some (1, ⟨16777214, issued, 100, 65535⟩) ∧
      (found issued).returnInHand 16777214 = false ∧
      ({ found issued with rackB := ⟨[(0, docked .held 16777214)], [], [], .idle⟩ } : State).returnInHand 16777214 =
        true ∧
      (pool .stock (docked .identifying 16777213) (.busy (.markRepair 31))).bySerial 16777213 = none := by
  decide +kernel

theorem witness_IssueStepsComplete :
    let s := issuing none (.busy (.preset 31 24 []))
    let u := issuing (some 24) (.busy (.markHired 31))
    s.InFlight .a (.preset 31 24 []) ∧ s.rackFitted .a = true ∧ (s.rack .a).queue = [head none] ∧ u.InFlight .a (.markHired 31) ∧
      (u.rack .a).queue = [head (some 24)] ∧ (head (some 24)).slot = 31 ∧
      (u.slot .a 31).ident = some ⟨16777214, 30, .hired, 24⟩ ∧
      u.bySerial 16777214 = some (1, ⟨16777214, .pending ⟨1023, 255⟩ 31 .a, 100, 65535⟩) ∧
      u.account 1023 = ⟨255, some (hire [⟨1, false⟩])⟩ := by decide +kernel

/-- A return that leaves another entry, one that closes, and one that finds the buffer FULL. -/
theorem witness_ReturnIsDecided :
    let meets (entries : List Entry) (buffer : Option Settlement) : Prop :=
      let s : State :=
        { out issued entries { docked .returning 16777214 with returned := some ⟨16777215, 65535⟩ }
            (.busy (.markReturn 31)) with bufferA := buffer }
      s.InFlight .a (.markReturn 31) ∧ (s.slot .a 31).ident = some ⟨16777214, 30, .hired, 24⟩ ∧
        (s.slot .a 31).returned = some ⟨16777215, 65535⟩ ∧
        s.bySerial 16777214 = some (1, ⟨16777214, issued, 100, 65535⟩) ∧
        s.account 1023 = ⟨255, some (hire entries)⟩ ∧ s.buffer .a = buffer
    meets [⟨0, true⟩, ⟨1, true⟩] none ∧ meets [⟨1, true⟩] none ∧ meets [⟨1, true⟩] (some settlement) := by
  decide +kernel

/-- A first and a second LINE_FAULT, a NO_ANSWER, on a slot without work, with a return and with an issue. -/
theorem witness_DockWorkFails :
    let s := pool .stock { docked .occupied 1 with retry := true } (.busy (.probe 31))
    let returning := out issued [⟨1, true⟩] (docked .returning 16777214) (.busy (.markReturn 31))
    let u := issuing none (.busy (.preset 31 24 []))
    s.InFlight .a (.probe 31) ∧
      FailsBy s .a (.probe 31) (lineFaultOf .a (.probe 31)) .faulted .lineFault [.slotFaulted 31 .probe] ∧
      returning.InFlight .a (.markReturn 31) ∧ (returning.slot .a 31).retry = false ∧
      FailsBy returning .a (.markReturn 31) (noAnswerOf .a (.markReturn 31)) .departing .removed [] ∧
      (returning.slot .a 31).state = .returning ∧
      returning.bySerial 16777214 = some (1, ⟨16777214, issued, 100, 65535⟩) ∧
      u.InFlight .a (.preset 31 24 []) ∧ (u.slot .a 31).state = .issuing ∧
      (u.slot .a 31).issue = some ⟨⟨1023, 255⟩, 31⟩ ∧
      u.bySerial 16777214 = some (1, ⟨16777214, .pending ⟨1023, 255⟩ 31 .a, 100, 65535⟩) ∧
      u.account 1023 = ⟨255, some (hire [⟨1, false⟩])⟩ := by decide +kernel

-- The profile, the starts, the invariants

theorem witness_ProfileCommandsAct :
    let fields : List Byte := List.replicate 15 0xFF
    State.reset.run ≠ .off ∧ (State.reset.port .ops).inHand = none ∧ fields.length = 15 ∧
      profileFields fields = some [255, 255, 255, 255, 255, 255, 65535, 255, 255, 65535, 255, 255, 255] ∧
      ({ State.reset with run := .install } : State).run = .install ∧
      (⟨fields, 0⟩ : StoreImage) ≠ ⟨fields, crc16 fields⟩ ∧ State.reset.run = .hall := by decide +kernel

theorem witness_ColdStartClears :
    ({ State.reset with marker := false } : State).marker = false ∧ State.reset.run ≠ .off := by decide +kernel

theorem witness_WarmStartKeeps : mapped.marker = true ∧ mapped.run ≠ .off := by decide +kernel

theorem test_reset_bounded : State.reset.Bounded where
  ports := fun p => by cases p <;> decide +kernel
  queues := fun r => by cases r <;> decide +kernel
  clock := ⟨by decide, fun _ => ⟨by decide, by decide⟩⟩
  tables := fun _ => by decide +kernel
  feed := fun _ h => absurd h (by decide)
  profile := by unfold State.ProfileInRange; decide +kernel
  takers := fun _ => ⟨List.Pairwise.nil, List.not_mem_nil⟩

/-- The reset state with a second event waiting. -/
def waiting : State := { State.reset with pending := [.secondEvent] }

theorem witness_StepKeepsBounds : waiting.Bounded ∧ ∃ t, step waiting = .next t :=
  ⟨⟨test_reset_bounded.ports, test_reset_bounded.queues, test_reset_bounded.clock, test_reset_bounded.tables,
    test_reset_bounded.feed, test_reset_bounded.profile, test_reset_bounded.takers⟩, _, rfl⟩

theorem witness_StepKeepsLanguagesInAgreement : waiting.LanguagesAgree ∧ ∃ t, step waiting = .next t := by
  refine ⟨fun _ => ⟨⟨?_, ?_⟩, ?_, ?_⟩, _, rfl⟩
  · intro l c h; exact nomatch h
  · intro c l h; exact nomatch h
  · intro l; rfl
  · intro b l h; rcases h with h | h | h <;> exact nomatch h

end Sys2Proof.Tests
end

section
/-!
PROOFS. The relay map: what a selection of an input does (R69 to R71, R75) and PREVIOUS (R76).
-/
namespace Sys2Proof.Machine

variable (s : State)

-- Steps that write booths, ports and the feed link alone

/-- In going from `s` to `t` the booths, the ports and the feed link alone may have changed. -/
def State.OnlyBooths (s t : State) : Prop :=
  t = { s with
    booths := t.booths, opsPort := t.opsPort, deskAPort := t.deskAPort, deskBPort := t.deskBPort, feed := t.feed }

theorem State.OnlyBooths.refl : s.OnlyBooths s := rfl

theorem State.OnlyBooths.trans {s t u : State} (h : s.OnlyBooths t) (h' : t.OnlyBooths u) : s.OnlyBooths u := by
  unfold State.OnlyBooths at *
  rw [h] at h'
  exact h'

theorem onlyBooths_setBooth (b : Nat) (v : Booth) : s.OnlyBooths (s.setBooth b v) := by
  unfold State.OnlyBooths State.setBooth State.clearReservations
  dsimp only
  split <;> rfl

theorem onlyBooths_feedWork : s.OnlyBooths s.feedWork := by
  unfold State.OnlyBooths
  rw [feedWork_frame]

-- The order in which reservations are cleared

theorem clearOn_comm (q : PortState) (r r' : RecordName) : (q.clearOn r).clearOn r' = (q.clearOn r').clearOn r := by
  simp only [clearOn_eq, withReservation_withReservation]
  congr 1
  show (q.reservation.filter _).filter _ = (q.reservation.filter _).filter _
  simp only [Option.filter_filter, Bool.and_comm]

/-- Reservations are cleared on a set of records: their order does not matter. -/
theorem Told.perm {s t : State} {rs rs' : List RecordName} {ns : Port → List Notice} (h : Told s t rs ns)
    (hp : rs.Perm rs') : Told s t rs' ns := by
  intro p
  rw [h p]
  congr 1
  exact hp.foldl_eq' (fun r _ r' _ q => clearOn_comm q r r') _

/-- Two steps without notices clear what each does. -/
theorem Told.trans_silent {s t u : State} {rs rs' : List RecordName} (h : Told s t rs toNone)
    (h' : Told t u rs' toNone) : Told s u (rs ++ rs') toNone := h.trans h'

-- Writes of the relay map

/-- A new taker set clears the booth's reservations if it is another one (R192). -/
theorem told_setTakers (a : Nat) (takers : List Nat) :
    Told s (s.setBooth a { s.booth a with takers := takers }) (s.takerRecords a takers) toNone := by
  have hv : ({ s.booth a with takers := takers } : Booth).view = (s.booth a).view ↔ takers = (s.booth a).takers :=
    ⟨congrArg BoothView.takers, fun h => by rw [h]⟩
  simpa only [hv, State.takerRecords] using told_setBooth s a { s.booth a with takers := takers }

theorem takerRecords_congr {s t : State} {a : Nat} {takers : List Nat}
    (h : (t.booth a).takers = (s.booth a).takers) : t.takerRecords a takers = s.takerRecords a takers := by
  rw [State.takerRecords, State.takerRecords, h]

theorem booth_leaveSource_with (x y : Nat) :
    (s.leaveSource x).booth y =
      { s.booth y with
        takers := if (s.booth x).input = .relay y then setDel x (s.booth y).takers else (s.booth y).takers } := by
  rw [booth_leaveSource]
  split <;> rfl

theorem told_leaveSource (x : Nat) : Told s (s.leaveSource x) (s.leftRecords x) toNone := by
  unfold State.leaveSource State.leftRecords
  cases (s.booth x).input with
  | floor => exact Told.refl s
  | relay a => exact told_setTakers s a _

/-- The input is in the reserved view: a new one clears the booth's reservations (R192). -/
theorem told_writeInput {x : Nat} {i : Input} (push : Bool) (h : (s.booth x).input ≠ i) :
    Told s (s.writeInput x i push) [.booth x] toNone := by
  have ht := told_setBooth s x
    { s.booth x with
      input := i, stack := if push then (s.booth x).stack.push (s.booth x).input else (s.booth x).stack }
  rwa [if_neg fun e => h (congrArg BoothView.input e).symm] at ht

theorem onlyBooths_leaveSource (x : Nat) : s.OnlyBooths (s.leaveSource x) := by
  unfold State.leaveSource
  cases (s.booth x).input with
  | floor => exact .refl s
  | relay a => exact onlyBooths_setBooth s a _

/-- The part that every selection begins with: the source left behind and the new input (R70, R71). -/
theorem onlyBooths_leave_write (x : Nat) (i : Input) (push : Bool) :
    s.OnlyBooths ((s.leaveSource x).writeInput x i push) :=
  (onlyBooths_leaveSource s x).trans (onlyBooths_setBooth _ x _)

theorem told_leave_write {x : Nat} {i : Input} (push : Bool) (h : (s.booth x).input ≠ i) :
    Told s ((s.leaveSource x).writeInput x i push) (s.leftRecords x ++ [.booth x]) toNone := by
  have hx : ((s.leaveSource x).booth x).input ≠ i := by rwa [booth_leaveSource_with]
  exact (told_leaveSource s x).trans_silent (told_writeInput _ push hx)

theorem booth_leave_write (x y : Nat) (i : Input) (push : Bool) :
    ((s.leaveSource x).writeInput x i push).booth y =
      { s.booth y with
        input := if y = x then i else (s.booth y).input
        stack :=
          if y = x then (if push then (s.booth x).stack.push (s.booth x).input else (s.booth x).stack)
          else (s.booth y).stack
        takers := if (s.booth x).input = .relay y then setDel x (s.booth y).takers else (s.booth y).takers } := by
  rw [booth_writeInput, booth_leaveSource_with, booth_leaveSource_with]
  by_cases hy : y = x
  · subst hy; simp
  · simp [hy]

-- What a selection does (R69 to R71)

theorem ite_some_eq_none_iff {p : Prop} [Decidable p] (cause : Cause) (rest : Option Cause) :
    (if p then some cause else rest) = none ↔ ¬ p ∧ rest = none := by
  split <;> simp [*]

/-- The checks of R69 pass exactly when booth `x` may select RELAY(b). -/
theorem relayCheck_eq_none_iff (x b : Nat) : s.relayCheck x b = none ↔ MayRelay s x b := by
  unfold State.relayCheck MayRelay Booth.present
  simp only [ite_some_eq_none_iff]
  cases (s.booth b).language <;> simp

theorem selected_floor {x : Nat} (push : Bool) :
    Selected s ((s.leaveSource x).writeInput x .floor push) x .floor
      (if push then (s.booth x).stack.push (s.booth x).input else (s.booth x).stack) := by
  intro y
  rw [booth_leave_write]
  simp

theorem selected_joinSource (x b : Nat) (push : Bool) :
    Selected s (s.joinSource x b push) x (.relay b)
      (if push then (s.booth x).stack.push (s.booth x).input else (s.booth x).stack) := by
  intro y
  unfold State.joinSource
  dsimp only
  rw [booth_setBooth, booth_leave_write, booth_leave_write]
  by_cases hy : y = b
  · subst hy; simp
  · have hb : b ≠ y := fun e => hy e.symm
    simp [hy, hb]

/-- Carried out, a selection of RELAY(b) clears the reservations of booth `x` and of the sources left and joined (R192). -/
theorem told_joinSource {x b : Nat} (push : Bool) (h : (s.booth x).input ≠ .relay b) :
    Told s (s.joinSource x b push) (s.selectionRecords x (.relay b)) toNone := by
  have hb : (((s.leaveSource x).writeInput x (.relay b) push).booth b).takers = (s.booth b).takers := by
    rw [booth_leave_write]; exact if_neg h
  have ht := (told_leave_write s push h).trans_silent (told_setTakers _ b (setAdd x (s.booth b).takers))
  rw [takerRecords_congr hb, List.append_assoc] at ht
  unfold State.joinSource
  dsimp only
  rw [hb]
  exact ht.perm List.perm_middle

theorem onlyBooths_joinSource (x b : Nat) (push : Bool) : s.OnlyBooths (s.joinSource x b push) :=
  (onlyBooths_leave_write s x _ push).trans (onlyBooths_setBooth _ b _)

theorem select_held {x : Nat} {i : Input} (push : Bool) (h : (s.booth x).input = i) :
    s.select x i push = .unchanged := if_pos h

/-- A selection of another input that may be made is carried out (R69 to R71). -/
theorem select_carried_out {x : Nat} {i : Input} (push : Bool) (h : (s.booth x).input ≠ i)
    (hmay : ∀ b, i = .relay b → MayRelay s x b) :
    ∃ t, s.select x i push = .selected t ∧
      Selected s t x i (if push then (s.booth x).stack.push (s.booth x).input else (s.booth x).stack) ∧
      Told s t (s.selectionRecords x i) toNone ∧ s.OnlyBooths t := by
  cases i with
  | floor =>
    refine ⟨_, if_neg h, selected_floor s push, ?_, onlyBooths_leave_write s x _ push⟩
    exact (told_leave_write s push h).perm List.perm_middle
  | relay b =>
    refine ⟨_, ?_, selected_joinSource s x b push, told_joinSource s push h, onlyBooths_joinSource s x b push⟩
    simp only [State.select, if_neg h, (relayCheck_eq_none_iff s x b).mpr (hmay b rfl)]

/-- A selection of another input that may not be made is refused (R69). -/
theorem select_refused {x b : Nat} (push : Bool) (h : (s.booth x).input ≠ .relay b) (hmay : ¬ MayRelay s x b) :
    ∃ cause, s.select x (.relay b) push = .refused cause := by
  rw [← relayCheck_eq_none_iff] at hmay
  obtain ⟨cause, hc⟩ := Option.ne_none_iff_exists'.mp hmay
  exact ⟨cause, by simp only [State.select, if_neg h, hc]⟩

-- The pop of the history stack (R76)

/-- The state with the history stack of booth `x` popped. -/
def State.popHistory (s : State) (x : Nat) : State :=
  s.setBooth x { s.booth x with stack := (s.booth x).stack.pop }

theorem booth_popHistory (x y : Nat) :
    (s.popHistory x).booth y =
      { s.booth y with stack := if y = x then (s.booth x).stack.pop else (s.booth y).stack } := by
  unfold State.popHistory
  rw [booth_setBooth]
  split <;> simp_all

/-- The history stack is outside the reserved view (R192). -/
theorem told_popHistory (x : Nat) : Told s (s.popHistory x) [] toNone := by
  have h := told_setBooth s x { s.booth x with stack := (s.booth x).stack.pop }
  rwa [if_pos (by rfl)] at h

theorem onlyBooths_popHistory (x : Nat) : s.OnlyBooths (s.popHistory x) := onlyBooths_setBooth s x _

theorem popHistory_booth_ne {x y : Nat} (h : y ≠ x) : (s.popHistory x).booth y = s.booth y := by
  simp [booth_popHistory, h]

@[simp] theorem popHistory_booth_same (x : Nat) :
    (s.popHistory x).booth x = { s.booth x with stack := (s.booth x).stack.pop } := by simp [booth_popHistory]

@[simp] theorem popHistory_profile (x : Nat) : (s.popHistory x).profile = s.profile := setBooth_profile s x _

@[simp] theorem popHistory_input (x y : Nat) : ((s.popHistory x).booth y).input = (s.booth y).input := by
  rw [booth_popHistory]

@[simp] theorem popHistory_takers (x y : Nat) : ((s.popHistory x).booth y).takers = (s.booth y).takers := by
  rw [booth_popHistory]

@[simp] theorem popHistory_link (x y : Nat) : ((s.popHistory x).booth y).link = (s.booth y).link := by
  rw [booth_popHistory]

@[simp] theorem popHistory_config (x y : Nat) : ((s.popHistory x).booth y).config = (s.booth y).config := by
  rw [booth_popHistory]

@[simp] theorem popHistory_language (x y : Nat) : ((s.popHistory x).booth y).language = (s.booth y).language := by
  rw [booth_popHistory]; rfl

@[simp] theorem popHistory_depth (x fuel b : Nat) : (s.popHistory x).depth fuel b = s.depth fuel b := by
  induction fuel generalizing b with
  | zero => rfl
  | succ fuel ih => simp only [State.depth, popHistory_input, ih]

@[simp] theorem popHistory_height (x fuel b : Nat) : (s.popHistory x).height fuel b = s.height fuel b := by
  induction fuel generalizing b with
  | zero => rfl
  | succ fuel ih => simp only [State.height, popHistory_takers, ih]

@[simp] theorem popHistory_inTree (x fuel y z : Nat) : (s.popHistory x).inTree fuel y z = s.inTree fuel y z := by
  induction fuel generalizing y with
  | zero => rfl
  | succ fuel ih => simp only [State.inTree, popHistory_takers, ih]

/-- The checks of R69 do not look at the history stacks. -/
theorem mayRelay_popHistory (x y b : Nat) : MayRelay (s.popHistory x) y b ↔ MayRelay s y b := by
  simp [MayRelay]

theorem popHistory_selectionRecords (x y : Nat) (i : Input) :
    (s.popHistory x).selectionRecords y i = s.selectionRecords y i := by
  simp only [State.selectionRecords, State.leftRecords, State.takerRecords, popHistory_input, popHistory_takers]

/-- A selection made after the pop is, seen from before it, one that writes the selecting booth's stack. -/
theorem selected_of_popHistory {s t : State} {x : Nat} {i : Input} {stack : InputStack}
    (h : Selected (s.popHistory x) t x i stack) : Selected s t x i stack := by
  intro y
  rw [h y, popHistory_input, popHistory_input, popHistory_takers, booth_popHistory]
  by_cases hy : y = x <;> simp [hy]

-- PREVIOUS (R68, R76)

/-- PREVIOUS where the relay map takes input keys: the stack is popped, the popped entry selected without a push, and the
feed link follows. -/
theorem exec_previous {x : Nat} {g : Abilities} (hr : s.run = .hall) (hp : (s.booth x).link.state = .present)
    (hg : (s.booth x).granted = some g) (hk : g.relay = true) :
    exec (.previous x) s = .next ((s.popHistory x).selectByKey x (s.booth x).stack.e1 false).feedWork := by
  have hkeys : (s.booth x).relayKeys = true := by simp [Booth.relayKeys, Booth.present, hp, hg, hk]
  have hkey : s.previousKey x = (s.popHistory x).selectByKey x (s.booth x).stack.e1 false := if_pos hkeys
  show Host.Outcome.next (s.hallEvent fun s => s.previousKey x) = _
  rw [State.hallEvent, if_pos hr, hkey]

/-- A popped entry that may be selected becomes the input, and nothing is pushed. -/
theorem popHistory_selectByKey_selects {x : Nat} {i : Input} (h : (s.booth x).input ≠ i)
    (hmay : ∀ b, i = .relay b → MayRelay s x b) :
    ∃ t, (s.popHistory x).selectByKey x i false = t ∧ Selected s t x i (s.booth x).stack.pop ∧
      Told s t (s.selectionRecords x i) toNone ∧ s.OnlyBooths t := by
  obtain ⟨t, hsel, hbooths, htold, hframe⟩ :=
    select_carried_out (s.popHistory x) (x := x) (i := i) false (by rwa [popHistory_input])
      fun b hb => (mayRelay_popHistory s x x b).mpr (hmay b hb)
  refine ⟨t, by rw [State.selectByKey, hsel], ?_, ?_, (onlyBooths_popHistory s x).trans hframe⟩
  · simpa using selected_of_popHistory hbooths
  · rw [← popHistory_selectionRecords s x]
    exact (told_popHistory s x).trans_silent htold

/-- A popped entry that is the input held already: the pop is all that happens. -/
theorem popHistory_selectByKey_held {x : Nat} {i : Input} (h : (s.booth x).input = i) :
    (s.popHistory x).selectByKey x i false = s.popHistory x := by
  rw [State.selectByKey, select_held _ false (by rwa [popHistory_input])]

/-- A popped entry that is refused: the pop stands, and the REFUSAL lamp flashes. -/
theorem popHistory_selectByKey_refused {x b : Nat} (h : (s.booth x).input ≠ .relay b) (hmay : ¬ MayRelay s x b) :
    (s.popHistory x).selectByKey x (.relay b) false = (s.popHistory x).flashLamp x .refusal := by
  obtain ⟨cause, hc⟩ := select_refused (s.popHistory x) (x := x) (b := b) false (by rwa [popHistory_input])
    ((mayRelay_popHistory s x x b).not.mpr hmay)
  rw [State.selectByKey, hc]

/-- Settles O20: the pop changes nothing that a selection looks at, so that each case is the case of the selection from the
state before it. -/
theorem previousPops : Obligations.PreviousPops := by
  unfold Obligations.PreviousPops
  intro s x g hr hp hg hk
  have hexec := exec_previous s hr hp hg hk
  refine ⟨fun hne hmay => ?selects, fun heq => ?held, fun b he hne hmay => ?refused⟩
  case selects =>
    obtain ⟨t, ht, hbooths, htold, hframe⟩ := popHistory_selectByKey_selects s hne hmay
    rw [ht] at hexec
    exact ⟨t.feedWork, hexec, fun y => by rw [feedWork_booth]; exact hbooths y, htold.feedWork,
      hframe.trans (onlyBooths_feedWork t)⟩
  case held =>
    rw [popHistory_selectByKey_held s heq] at hexec
    refine ⟨_, hexec, ?_, fun y hy => ?_, (told_popHistory s x).feedWork,
      (onlyBooths_popHistory s x).trans (onlyBooths_feedWork _)⟩
    · rw [feedWork_booth, popHistory_booth_same]; rfl
    · rw [feedWork_booth, popHistory_booth_ne s hy]
  case refused =>
    rw [he, popHistory_selectByKey_refused s hne hmay] at hexec
    refine ⟨_, hexec, ?_, fun y hy => ?_, ((told_popHistory s x).trans_silent (told_flashLamp _ x .refusal)).feedWork,
      ((onlyBooths_popHistory s x).trans (onlyBooths_setBooth _ x _)).trans (onlyBooths_feedWork _)⟩
    · rw [feedWork_booth, booth_flashLamp, if_pos rfl, popHistory_booth_same]; rfl
    · rw [feedWork_booth, booth_flashLamp, if_neg hy, popHistory_booth_ne s hy]

end Sys2Proof.Machine
end

section
/-!
PROOFS. Settlements: what the settlement of an account and the commit of a return do (R153, R163), ACCOUNT_CLOSE (R142),
SETTLEMENT_TAKE and the resumption of HELD returns (R165, R166).
-/
namespace Sys2Proof.Machine

variable (s : State)

@[simp] theorem ownRack_deskOf (r : Rack) : ownRack (deskOf r) = some r := by cases r <;> rfl

theorem told_notifyRack (r : Rack) (n : Notice) : Told s (s.notifyRack r n) [] (toDesk r [n]) :=
  told_notify s (deskOf r) n

-- The checks of a command on an account

@[simp] theorem conditionOf_flagByte (cond : Bool) : conditionOf (flagByte cond) = some cond := by cases cond <;> rfl

/-- A flags byte with no bit set but bit 0 carries the conditional flag (R207). -/
theorem conditionOf_of_not_lt {flags : Byte} (h : ¬ 1 < flags.toNat) :
    conditionOf flags = some (decide (flags = 0x01)) := by
  have hcases : flags = 0x00 ∨ flags = 0x01 := by bv_omega
  rcases hcases with rfl | rfl <;> rfl

theorem conditionOf_of_lt {flags : Byte} (h : 1 < flags.toNat) : conditionOf flags = none := by
  have h0 : flags ≠ 0x00 := by bv_omega
  have h1 : flags ≠ 0x01 := by bv_omega
  exact (if_neg h0).trans (if_neg h1)

/-- A conditional command goes on exactly when the reservation is not lost to it (R195). -/
theorem conditionMet_eq_not_lostTo (flags : Byte) (p : Port) (v : Reservation) :
    s.conditionMet (decide (flags = 0x01)) p v = !s.lostTo flags p v := by
  simp [State.conditionMet, State.reserved, State.lostTo]

theorem conditionMet_of_allows {cond : Bool} {p : Port} {v : Reservation} (h : s.Allows cond p v) :
    s.conditionMet cond p v = true := by
  cases cond
  · rfl
  · simp [State.conditionMet, State.reserved, h rfl]

theorem openAccount_eq_none_iff (ref : AccountRef) : s.openAccount ref = none ↔ notOpen s ref = true := by
  unfold State.openAccount notOpen
  split <;> simp_all

theorem openAccount_of_account {ref : AccountRef} {o : OpenAccount}
    (h : s.account ref.index = ⟨ref.generation, some o⟩) : s.openAccount ref = some o := by
  simp [State.openAccount, h]

theorem account_of_openAccount {ref : AccountRef} {o : OpenAccount} (h : s.openAccount ref = some o) :
    (s.account ref.index).account = some o := by
  unfold State.openAccount at h
  split at h
  · exact h
  · exact nomatch h

/-- The bytes of a reference that a command carried are those the command carried (R207). -/
theorem refBytes_refOf (hi lo g : Byte) : refBytes (refOf hi lo g) = [hi, lo, g] := by
  have hhi : BitVec.ofNat 8 ((hi.toNat * 256 + lo.toNat) / 256) = hi := by bv_omega
  have hlo : BitVec.ofNat 8 (hi.toNat * 256 + lo.toNat) = lo := by bv_omega
  simp [refBytes, refOf, num2, byte2, byte1, hhi, hlo]

-- What a settlement does (R163, R168)

theorem ite_le_sub (a b : Nat) : (if b ≤ a then a - b else 0) = a - b := by split <;> omega

theorem ite_lt_sub (a b : Nat) : (if b < a then a - b else 0) = a - b := by split <;> omega

theorem ite_le_zero_sub (a b : Nat) : (if a ≤ b then 0 else a - b) = a - b := by split <;> omega

/-- The due and the refund of R162 are the model's truncated differences. -/
theorem settlementOf_now (ref : AccountRef) (o : OpenAccount) (r : Rack) :
    settlementOf ref o r s.now = settled s ref o r := by
  simp only [settlementOf, settled, ite_le_sub, ite_le_zero_sub, State.now]

/-- A FREE record and an OPEN one differ in their reserved view (R193). -/
theorem freed_view_ne {a : Account} {o : OpenAccount} (h : a.account = some o) : a.freed.view ≠ a.view := by
  obtain ⟨generation, account⟩ := a
  subst h
  intro e
  exact Bool.noConfusion (congrArg AccountView.opened e)

theorem gather_eq (c : ClassReport) (v : Settlement) : c.gather v = gathered c v := rfl

/-- A settlement writes the buffer, frees the record and gathers the settlement into the class's report counters. -/
theorem settled_settle (ref : AccountRef) (o : OpenAccount) (r : Rack) :
    Settled s (s.settle ref o r) ref r (settled s ref o r) := by
  refine ⟨?buffer, fun x hx => ?buffers, ?account, fun j hj => ?accounts, fun k => ?reports⟩
  case buffer => simp [State.settle, settlementOf_now]
  case buffers => simp [State.settle, buffer_setBuffer, hx]
  case account => simp [State.settle, Account.freed]
  case accounts => simp [State.settle, account_setAccount, hj]
  case reports =>
    simp only [State.settle, settlementOf_now, gather_eq, notifyRack_eq, notify_report, report_setReport,
      setAccount_report, setBuffer_report]
    split <;> simp [*]

theorem Settled.congr {s t u : State} {ref : AccountRef} {r : Rack} {v : Settlement} (h : Settled s t ref r v)
    (hbuffer : ∀ x, u.buffer x = t.buffer x) (haccount : ∀ j, u.account j = t.account j)
    (hreport : ∀ k, u.report k = t.report k) : Settled s u ref r v := by
  simpa only [Settled, hbuffer, haccount, hreport] using h

/-- A write that leaves the ports as they were adds nothing to what a step did to them. -/
theorem Told.of_same_ports {s t u : State} {rs : List RecordName} {ns : Port → List Notice} (h : Told s t rs ns)
    (hp : ∀ p, u.port p = t.port p) : Told s u rs ns := fun p => by rw [hp p, h p]

/-- A step without notices, and one notice to a rack's desk after it. -/
theorem Told.notifyRack {s t : State} {rs : List RecordName} (h : Told s t rs toNone) (r : Rack) (n : Notice) :
    Told s (t.notifyRack r n) rs (toDesk r [n]) := by
  simpa [toNone] using h.trans (told_notifyRack t r n)

/-- Two steps that tell the same rack's desk. -/
theorem Told.trans_desk {s t u : State} {rs rs' : List RecordName} {r : Rack} {ns ns' : List Notice}
    (h : Told s t rs (toDesk r ns)) (h' : Told t u rs' (toDesk r ns')) : Told s u (rs ++ rs') (toDesk r (ns ++ ns')) :=
  (h.trans h').congr (toDesk_append r ns ns')

/-- A settlement of an OPEN account clears the reservations on it and tells the rack's desk (R163, R193). -/
theorem told_settle {ref : AccountRef} {v : OpenAccount} (o : OpenAccount) (r : Rack)
    (h : (s.account ref.index).account = some v) :
    Told s (s.settle ref o r) [.account ref.index]
      (toDesk r [.settlementReady ref (settled s ref o r).due (settled s ref o r).refund]) := by
  have hbuffer : Told s (s.setBuffer r (some (settled s ref o r))) [] toNone := .of_ports (setBuffer_port s r _)
  have hfreed := told_setAccount (s.setBuffer r (some (settled s ref o r))) ref.index (s.account ref.index).freed
  rw [setBuffer_account, if_neg (freed_view_ne h)] at hfreed
  unfold State.settle
  rw [settlementOf_now]
  exact ((hbuffer.trans_silent hfreed).of_same_ports (setReport_port _ _ _)).notifyRack r _

@[simp] theorem settle_receiver (ref : AccountRef) (o : OpenAccount) (r : Rack) (i : Nat) :
    (s.settle ref o r).receiver i = s.receiver i := by simp [State.settle]

@[simp] theorem settle_language (ref : AccountRef) (o : OpenAccount) (r : Rack) (l : Nat) :
    (s.settle ref o r).language l = s.language l := by simp [State.settle]

@[simp] theorem settle_rack (ref : AccountRef) (o : OpenAccount) (r x : Rack) :
    (s.settle ref o r).rack x = s.rack x := by simp [State.settle]

@[simp] theorem settle_slot (ref : AccountRef) (o : OpenAccount) (r x : Rack) (n : Nat) :
    (s.settle ref o r).slot x n = s.slot x n := by simp [State.settle]

@[simp] theorem after_buffer (p : Port) (tag code : Byte) (v : Reply) (x : Rack) :
    (s.after p tag code v).buffer x = s.buffer x := by simp [State.after]

@[simp] theorem after_account (p : Port) (tag code : Byte) (v : Reply) (j : Nat) :
    (s.after p tag code v).account j = s.account j := by simp [State.after]

@[simp] theorem after_report (p : Port) (tag code : Byte) (v : Reply) (k : Nat) :
    (s.after p tag code v).report k = s.report k := by simp [State.after]

-- ACCOUNT_CLOSE (R142)

theorem exec_accountClose (p : Port) (tag : Byte) (payload : List Byte) :
    exec (.accountClose p tag payload) s =
      .next (s.command p tag CommandName.accountClose.code payload fun s =>
        s.answer .accountClose p payload (doAccountClose p payload)) := rfl

theorem permitted_accountClose (r : Rack) : CommandName.accountClose.permitted (deskOf r) = true := by
  cases r <;> rfl

/-- With its flags in order the command makes the checks of R142 one after another, and settles the account. -/
theorem doAccountClose_eq {flags : Byte} {cond : Bool} (r : Rack) (hi lo g : Byte)
    (hflags : conditionOf flags = some cond) :
    doAccountClose (deskOf r) [flags, hi, lo, g] s =
      if 1023 < (refOf hi lo g).index then refuse s .badArg
      else if s.rackFitted r = false then refuse s .wrongState
      else if s.conditionMet cond (deskOf r) ⟨.account (refOf hi lo g).index, (refOf hi lo g).generation⟩ = false then
        refuse s .reservationLost
      else
        (s.openAccount (refOf hi lo g)).elim (refuse s .noRecord) fun o =>
          if o.entries ≠ [] then refuse s .holdsUnits
          else if s.buffer r ≠ none then refuse s .settleBusy
          else
            ((s.settle (refOf hi lo g) o r).consume cond (deskOf r),
              ⟨.ok, [hi, lo, g] ++ byte4 (settled s (refOf hi lo g) o r).due ++
                byte4 (settled s (refOf hi lo g) o r).refund⟩) := by
  unfold doAccountClose
  cases hopen : s.openAccount (refOf hi lo g) <;>
    simp [hflags, hopen, refBytes_refOf, settlementOf_now, Option.isSome_iff_ne_none]

/-- A check made by a command's rule, and the same check in a list: it decides the refusal, or the later ones do. -/
theorem refuse_of_check {c : Prop} [Decidable c] {fails : Bool} {x y : Result} {rest : Option Result}
    {later : State × Reply} (hc : c ↔ fails = true) (h : (if fails = true then some y else rest) = some x)
    (hlater : rest = some x → later = refuse s x) : (if c then refuse s y else later) = refuse s x := by
  by_cases hfails : fails = true
  · rw [if_pos hfails] at h
    rw [if_pos (hc.mpr hfails), Option.some.inj h]
  · rw [if_neg hfails] at h
    rw [if_neg (hc.not.mpr hfails), hlater h]

/-- The first check that fails decides the refusal (R142). -/
theorem doAccountClose_refused {r : Rack} {flags hi lo g : Byte} {x : Result}
    (h : firstFailure (accountCloseChecks s r flags (refOf hi lo g)) = some x) :
    doAccountClose (deskOf r) [flags, hi, lo, g] s = refuse s x := by
  simp only [accountCloseChecks, firstFailure_cons, firstFailure_nil] at h
  by_cases hflags : 1 < flags.toNat
  · have hx : x = .badArg := by simpa [hflags] using h.symm
    simp [doAccountClose, conditionOf_of_lt hflags, hx]
  · rw [doAccountClose_eq s r hi lo g (conditionOf_of_not_lt hflags), conditionMet_eq_not_lostTo]
    refine refuse_of_check s (by simp [hflags]) h fun h => ?_
    refine refuse_of_check s (by simp) h fun h => ?_
    refine refuse_of_check s (by simp) h fun h => ?_
    cases hopen : s.openAccount (refOf hi lo g) with
    | none =>
      rw [if_pos ((openAccount_eq_none_iff s _).mp hopen)] at h
      rw [← Option.some.inj h]
      rfl
    | some o =>
      rw [if_neg ((openAccount_eq_none_iff s _).not.mp (by simp [hopen])), account_of_openAccount s hopen] at h
      refine refuse_of_check s (by simp) h fun h => ?_
      exact refuse_of_check s (by simp) h fun h => nomatch h

/-- With every check passed the account is settled into the rack's buffer (R142, R163). -/
theorem doAccountClose_settles {r : Rack} {cond : Bool} {hi lo g : Byte} {o : OpenAccount}
    (hindex : (refOf hi lo g).index ≤ 1023) (hfit : s.rackFitted r = true)
    (hallow : s.Allows cond (deskOf r) ⟨.account (refOf hi lo g).index, (refOf hi lo g).generation⟩)
    (hopen : s.openAccount (refOf hi lo g) = some o) (hentries : o.entries = []) (hempty : s.buffer r = none) :
    doAccountClose (deskOf r) [flagByte cond, hi, lo, g] s =
      ((s.settle (refOf hi lo g) o r).consume cond (deskOf r),
        ⟨.ok, [hi, lo, g] ++ byte4 (settled s (refOf hi lo g) o r).due ++
          byte4 (settled s (refOf hi lo g) o r).refund⟩) := by
  rw [doAccountClose_eq s r hi lo g (conditionOf_flagByte cond)]
  simp [hfit, conditionMet_of_allows s hallow, hopen, hentries, hempty, Nat.not_lt.mpr hindex]

/-- ACCOUNT_CLOSE is refused by the first of its checks that fails, and then changes nothing (R142, R195). -/
theorem accountClose_refusedBy {s : State} {r : Rack} (tag flags hi lo g : Byte) (ht : s.Takes (deskOf r)) :
    RefusedBy (.accountClose (deskOf r) tag [flags, hi, lo, g]) s (deskOf r) tag 0x31
      (accountCloseChecks s r flags (refOf hi lo g)) := fun _ hx =>
  answers_own s (exec_accountClose s _ _ _) ht (permitted_accountClose r) rfl (doAccountClose_refused s hx)

/-- ACCOUNT_CLOSE of an account without entries settles it into the EMPTY buffer (R142, R163). -/
theorem accountClose_settles {s : State} {r : Rack} {cond : Bool} {tag hi lo g : Byte} {o : OpenAccount}
    (ht : s.Takes (deskOf r)) (hindex : (refOf hi lo g).index ≤ 1023) (hfit : s.rackFitted r = true)
    (hallow : s.Allows cond (deskOf r) ⟨.account (refOf hi lo g).index, (refOf hi lo g).generation⟩)
    (hopen : s.openAccount (refOf hi lo g) = some o) (hentries : o.entries = []) (hempty : s.buffer r = none) :
    ∃ t, exec (.accountClose (deskOf r) tag [flagByte cond, hi, lo, g]) s = .next t ∧
      Settled s t (refOf hi lo g) r (settled s (refOf hi lo g) o r) ∧
      AnsweredIf s t cond (deskOf r) tag 0x31
        ⟨.ok, [hi, lo, g] ++ byte4 (settled s (refOf hi lo g) o r).due ++
          byte4 (settled s (refOf hi lo g) o r).refund⟩
        [.account (refOf hi lo g).index]
        (toDesk r [.settlementReady (refOf hi lo g) (settled s (refOf hi lo g) o r).due
          (settled s (refOf hi lo g) o r).refund]) ∧
      t = { s with
        accounts := t.accounts, bufferA := t.bufferA, bufferB := t.bufferB, reports := t.reports,
        opsPort := t.opsPort, deskAPort := t.deskAPort, deskBPort := t.deskBPort, feed := t.feed } := by
  have hown := doAccountClose_settles s hindex hfit hallow hopen hentries hempty
  refine ⟨_, (exec_accountClose s _ _ _).trans (client_next ht (permitted_accountClose r) rfl hown), ?_,
    answeredIf_after (told_settle s o r (account_of_openAccount s hopen)), ?_⟩
  · exact Settled.congr (settled_settle s (refOf hi lo g) o r) (by simp) (by simp) (by simp)
  · ext <;> simp [State.after, State.settle]

-- The commit of a return (R153)

@[simp] theorem setOpen_eq (ref : AccountRef) (o : OpenAccount) :
    s.setOpen ref o = s.setAccount ref.index { s.account ref.index with account := some o } := rfl

@[simp] theorem dropListener_eq (l : Nat) :
    s.dropListener l = s.setLanguage l { s.language l with listeners := (s.language l).listeners - 1 } := rfl

theorem listenerRecords_congr {s t : State} {l : Nat} (h : t.language l = s.language l) :
    listenerRecords t l = listenerRecords s l := by
  unfold listenerRecords
  rw [h]

/-- The loss of a listener clears the language's reservations, unless it has none to lose (R191). -/
theorem told_dropListener (l : Nat) : Told s (s.dropListener l) (listenerRecords s l) toNone := by
  have hsame : { s.language l with listeners := (s.language l).listeners - 1 } = s.language l ↔
      (s.language l).listeners = 0 := by
    cases s.language l
    simp only [Language.mk.injEq, true_and]
    omega
  have h := told_setLanguage s l { s.language l with listeners := (s.language l).listeners - 1 }
  simp only [hsame] at h
  exact h

/-- The steps of R155 are the model's truncated differences. -/
theorem exactCharge_eq (w : Tariff) (issued time : Stamp) :
    exactCharge w issued time = chargeBeforeCeiling w issued.minute issued.day time.minute time.day := by
  unfold exactCharge chargeBeforeCeiling billedUnits hireDays elapsed
  simp only [ite_le_sub, ite_lt_sub]
  by_cases hcap : w.dayCap = 0 <;> simp [hcap]

/-- The charge of the return in hand before its ceiling (R155). -/
def ReturnWork.beforeCeiling (w : ReturnWork) : Nat :=
  chargeBeforeCeiling w.hire.snapshot w.issued.minute w.issued.day w.time.minute w.time.day

theorem charge_eq (w : ReturnWork) :
    charge w.hire.snapshot w.issued w.time =
      ⟨min 4294967295 w.beforeCeiling, decide (4294967295 < w.beforeCeiling)⟩ := by
  rw [charge, exactCharge_eq]
  rfl

/-- The account after the charge of the return in hand (R153, R156). -/
def ReturnWork.charged (w : ReturnWork) : OpenAccount :=
  chargedFor w.hire (min 4294967295 w.beforeCeiling) (decide (4294967295 < w.beforeCeiling)) w.index

theorem charged_eq (w : ReturnWork) :
    w.hire.charged (charge w.hire.snapshot w.issued w.time) w.index = w.charged := by
  rw [charge_eq]
  rfl

/-- The notice of a commit (R153). -/
def ReturnWork.doneNotice (w : ReturnWork) (n : Nat) : Notice :=
  .returnDone n w.receiver.serial w.account (min 4294967295 w.beforeCeiling) w.closes

/-- A return that commits, before the settlement that it may bring (R153). -/
def State.commitReturn (s : State) (r : Rack) (n : Nat) (w : ReturnWork) : State :=
  ((((s.setOpen w.account w.charged).setReceiver w.index (some (s.returned w.receiver))).dropListener
    w.language).setSlot r n w.committedSlot).notifyRack r (w.doneNotice n)

theorem commit_eq (r : Rack) (n : Nat) (w : ReturnWork) :
    s.commit r n w =
      if w.closes then (s.commitReturn r n w).settle w.account w.charged r else s.commitReturn r n w := by
  unfold State.commit
  dsimp only
  rw [charged_eq, charge_eq]
  rfl

variable (r : Rack) (n : Nat) (w : ReturnWork)

theorem commitReturn_account (j : Nat) :
    (s.commitReturn r n w).account j =
      if j = w.account.index then { s.account w.account.index with account := some w.charged } else s.account j := by
  simp [State.commitReturn, account_setAccount]

@[simp] theorem commitReturn_buffer (x : Rack) : (s.commitReturn r n w).buffer x = s.buffer x := by
  simp [State.commitReturn]

@[simp] theorem commitReturn_reports : (s.commitReturn r n w).reports = s.reports := by
  simp [State.commitReturn]

@[simp] theorem commitReturn_report (k : Nat) : (s.commitReturn r n w).report k = s.report k := by
  simp [State.commitReturn]

/-- The clock stands through a commit, and with it the settlement that an account would have. -/
theorem settled_commitReturn (ref : AccountRef) (o : OpenAccount) :
    settled (s.commitReturn r n w) ref o r = settled s ref o r := by
  simp [settled, State.commitReturn]

theorem told_commitReturn :
    Told s (s.commitReturn r n w)
      (accountRecords s w.account.index { s.account w.account.index with account := some w.charged } ++
        listenerRecords s w.language)
      (toDesk r [w.doneNotice n]) := by
  have hcharged : Told s (s.setOpen w.account w.charged) _ toNone := told_setAccount s w.account.index _
  have hback := hcharged.of_same_ports (setReceiver_port _ w.index (some (s.returned w.receiver)))
  have hlistener :=
    told_dropListener ((s.setOpen w.account w.charged).setReceiver w.index (some (s.returned w.receiver))) w.language
  rw [listenerRecords_congr (s := s) (by simp)] at hlistener
  exact ((hback.trans_silent hlistener).of_same_ports (setSlot_port _ r n w.committedSlot)).notifyRack r _

/-- What a settlement leaves alone is after a commit as it was before the settlement that the commit may bring. -/
theorem commit_read {α : Type} (read : State → α) (hread : ∀ t ref o, read (State.settle t ref o r) = read t) :
    read (s.commit r n w) = read (s.commitReturn r n w) := by
  rw [commit_eq]
  split
  · exact hread _ _ _
  · rfl

theorem commit_slot (x : Rack) (k : Nat) :
    (s.commit r n w).slot x k = if x = r ∧ k = n then w.committedSlot else s.slot x k :=
  (commit_read s r n w (fun t => t.slot x k) (by simp)).trans (by simp [State.commitReturn, slot_setSlot])

/-- But for its slots, a commit leaves the rack engine as it was: an OCCUPIED slot is probed (R112). -/
theorem commit_rack_same :
    ((s.commit r n w).rack r).queue = (s.rack r).queue ∧ ((s.commit r n w).rack r).bus = (s.rack r).bus ∧
      ((s.commit r n w).rack r).due = (s.rack r).due := by
  rw [commit_read s r n w (fun t => t.rack r) (by simp)]
  simp [State.commitReturn, due_setSlot, ReturnWork.committedSlot, SlotState.probed]

theorem commit_rack_ne {x : Rack} (hx : x ≠ r) : (s.commit r n w).rack x = s.rack x :=
  (commit_read s r n w (fun t => t.rack x) (by simp)).trans
    (by simp [State.commitReturn, State.setSlot, rack_setRack, hx])

theorem commit_receiver (i : Nat) :
    (s.commit r n w).receiver i = if i = w.index then some (s.returned w.receiver) else s.receiver i :=
  (commit_read s r n w (fun t => t.receiver i) (by simp)).trans (by simp [State.commitReturn, receiver_setReceiver])

theorem commit_language (l : Nat) :
    (s.commit r n w).language l =
      if l = w.language then { s.language w.language with listeners := (s.language w.language).listeners - 1 }
      else s.language l :=
  (commit_read s r n w (fun t => t.language l) (by simp)).trans (by simp [State.commitReturn, language_setLanguage])

theorem commit_frame :
    s.commit r n w =
      { s with
        receivers := (s.commit r n w).receivers, accounts := (s.commit r n w).accounts,
        languages := (s.commit r n w).languages, bufferA := (s.commit r n w).bufferA,
        bufferB := (s.commit r n w).bufferB, reports := (s.commit r n w).reports, rackA := (s.commit r n w).rackA,
        rackB := (s.commit r n w).rackB, opsPort := (s.commit r n w).opsPort,
        deskAPort := (s.commit r n w).deskAPort, deskBPort := (s.commit r n w).deskBPort } := by
  rw [commit_eq]
  split
  · ext <;> simp [State.settle, State.commitReturn]
  · ext <;> simp [State.commitReturn]

-- The resumption of HELD returns (R166)

/-- The return whose records the premises of `ResumesSlot` name is the return in hand in the slot. -/
theorem returnWork_eq_some {s : State} {r : Rack} {n : Nat} {ident : Ident} {time issued : Stamp} {i l : Nat}
    {w : Receiver} {ref : AccountRef} {rack : Rack} {o : OpenAccount} (hident : (s.slot r n).ident = some ident)
    (htime : (s.slot r n).returned = some time) (hserial : s.bySerial ident.serial = some (i, w))
    (hstate : w.state = .issued ref l rack issued) (hopen : s.openAccount ref = some o) :
    s.returnWork r n = some ⟨s.slot r n, ident, time, i, w, ref, l, issued, o⟩ := by
  simp [State.returnWork, State.identReceiver, hident, htime, hserial, hstate, hopen]

/-- A slot that is not HELD, or a FULL buffer: nothing is resumed (R166). -/
theorem resumeSlot_skip (h : ¬ (s.buffer r = none ∧ (s.slot r n).state = .held)) : s.resumeSlot r n = s := by
  rw [not_and_or, ← ne_eq, ← Option.isSome_iff_ne_none] at h
  exact if_pos (by simpa using h)

/-- The return in hand in a HELD slot commits while the buffer is EMPTY (R151, R166). -/
theorem resumeSlot_commit (hempty : s.buffer r = none) (hheld : (s.slot r n).state = .held)
    (hwork : s.returnWork r n = some w) : s.resumeSlot r n = s.commit r n w := by
  simp [State.resumeSlot, State.decideReturn, hempty, hheld, hwork]

/-- A commit that closes its account: the account is settled as it stands after the charge (R151, R153, R163). -/
theorem settled_commit (hcloses : w.closes = true) :
    Settled s (s.commit r n w) w.account r (settled s w.account w.charged r) := by
  obtain ⟨hbuffer, hbuffers, haccount, haccounts, hreports⟩ :=
    settled_settle (s.commitReturn r n w) w.account w.charged r
  rw [settled_commitReturn] at hbuffer hreports
  rw [commit_eq, if_pos hcloses]
  refine ⟨hbuffer, fun x hx => ?_, ?_, fun j hj => ?_, fun k => ?_⟩
  · rw [hbuffers x hx, commitReturn_buffer]
  · rw [haccount, commitReturn_account, if_pos rfl]
  · rw [haccounts j hj, commitReturn_account, if_neg hj]
  · rw [hreports k, commitReturn_report]

/-- What a commit clears and tells: the charge, the listener, and the settlement if it makes one (R153, R163). -/
theorem told_commit :
    Told s (s.commit r n w)
      (let records := accountRecords s w.account.index { s.account w.account.index with account := some w.charged } ++
        listenerRecords s w.language
       if w.closes then records ++ [.account w.account.index] else records)
      (toDesk r (w.doneNotice n ::
        if w.closes then
          [.settlementReady w.account (settled s w.account w.charged r).due (settled s w.account w.charged r).refund]
        else [])) := by
  have hcharged := told_commitReturn s r n w
  rw [commit_eq]
  split
  · have hopen : ((s.commitReturn r n w).account w.account.index).account = some w.charged := by
      simp [commitReturn_account]
    have hsettle := told_settle (s.commitReturn r n w) w.charged r hopen
    rw [settled_commitReturn] at hsettle
    exact hcharged.trans_desk hsettle
  · exact hcharged

/-- A commit that leaves its account open: the account is charged, and nothing is settled (R151, R153). -/
theorem commit_leaves_open (hopen : w.closes = false) :
    (s.commit r n w).account w.account.index = { s.account w.account.index with account := some w.charged } ∧
      (∀ j, j ≠ w.account.index → (s.commit r n w).account j = s.account j) ∧
      (∀ x, (s.commit r n w).buffer x = s.buffer x) ∧ (s.commit r n w).reports = s.reports := by
  rw [commit_eq, if_neg (Bool.eq_false_iff.mp hopen)]
  refine ⟨?_, fun j hj => ?_, commitReturn_buffer s r n w, commitReturn_reports s r n w⟩
  · rw [commitReturn_account, if_pos rfl]
  · rw [commitReturn_account, if_neg hj]

/-- A HELD return that is resumed commits as R153 says. -/
theorem resumesSlot_resumeSlot (hempty : s.buffer r = none) (hheld : (s.slot r n).state = .held) :
    ResumesSlot s (s.resumeSlot r n) r n := by
  intro ident time issued i l w ref rack o hident htime hserial hstate haccount
  let work : ReturnWork := ⟨s.slot r n, ident, time, i, w, ref, l, issued, o⟩
  have hwork : s.returnWork r n = some work :=
    returnWork_eq_some hident htime hserial hstate (openAccount_of_account s haccount)
  rw [resumeSlot_commit s r n work hempty hheld hwork]
  obtain ⟨hqueue, hbus, hdue⟩ := commit_rack_same s r n work
  refine ⟨?slot, fun m hm => ?slots, hqueue, hbus, hdue, fun x hx => commit_rack_ne s r n work hx, ?receiver,
    fun j hj => ?receivers, ?language, fun k hk => ?languages, ?account, ?told, commit_frame s r n work⟩
  case slot => rw [commit_slot, if_pos ⟨rfl, rfl⟩]; rfl
  case slots => rw [commit_slot, if_neg fun h => hm h.2]
  case receiver => rw [commit_receiver, if_pos rfl]; simp [State.returned, work]
  case receivers => rw [commit_receiver, if_neg hj]
  case language => rw [commit_language, if_pos rfl]
  case languages => rw [commit_language, if_neg hk]
  case account =>
    split
    next hcloses => exact settled_commit s r n work hcloses
    next hopen =>
      have h := commit_leaves_open s r n work (Bool.eq_false_iff.mpr hopen)
      rw [haccount] at h
      exact h
  case told =>
    have h := told_commit s r n work
    rw [haccount] at h
    exact h

/-- The resumption takes the slots one after another (R166). -/
theorem resumes_foldl (ns : List Nat) : Resumes r ns s (ns.foldl (fun s n => s.resumeSlot r n) s) := by
  induction ns generalizing s with
  | nil => rfl
  | cons n rest ih =>
    unfold Resumes
    rw [List.foldl_cons]
    split
    next h => exact ⟨_, resumesSlot_resumeSlot s r n h.1 h.2, ih _⟩
    next h => rw [resumeSlot_skip s r n h]; exact ih s

theorem resume_of_none_held (h : ∀ n, n ≤ 31 → (s.slot r n).state ≠ .held) : s.resume r = s := by
  unfold State.resume
  refine List.foldlRecOn (motive := (· = s)) _ _ rfl fun t ht n hn => ?_
  subst ht
  have hn : n ≤ 31 := by have := List.mem_range.mp hn; omega
  exact resumeSlot_skip t r n fun hheld => h n hn hheld.2

-- SETTLEMENT_TAKE (R165)

theorem exec_settlementTake (p : Port) (tag : Byte) (payload : List Byte) :
    exec (.settlementTake p tag payload) s =
      .next (s.command p tag CommandName.settlementTake.code payload fun s =>
        s.answer .settlementTake p payload (doSettlementTake p payload)) := rfl

theorem permitted_settlementTake : CommandName.settlementTake.permitted (deskOf r) = true := by cases r <;> rfl

/-- SETTLEMENT_TAKE of an EMPTY buffer is refused (R165). -/
theorem settlementTake_empty {s : State} {r : Rack} (tag : Byte) (ht : s.Takes (deskOf r))
    (hempty : s.buffer r = none) :
    Answers (.settlementTake (deskOf r) tag []) s (deskOf r) tag 0x33
      ⟨if s.rackFitted r then .noRecord else .wrongState, []⟩ := by
  refine answers_own s (exec_settlementTake s _ _ _) ht (permitted_settlementTake r) rfl ?_
  simp [doSettlementTake, hempty, refuse, Reply.bare]

/-- SETTLEMENT_TAKE of a FULL buffer empties it into the reply and resumes the HELD returns (R165, R166). -/
theorem settlementTake_full {s : State} {r : Rack} {v : Settlement} (tag : Byte) (ht : s.Takes (deskOf r))
    (hfull : s.buffer r = some v) :
    exec (.settlementTake (deskOf r) tag []) s =
      .next (((s.setBuffer r none).resume r).after (deskOf r) tag 0x33 ⟨.ok, v.bytes⟩) := by
  have hown : doSettlementTake (deskOf r) [] s = ((s.setBuffer r none).resume r, ⟨.ok, v.bytes⟩) := by
    simp [doSettlementTake, hfull]
  exact (exec_settlementTake s _ _ _).trans (client_next ht (permitted_settlementTake r) rfl hown)

/-- With no HELD slot on the rack the buffer is emptied into the reply, and nothing else happens (R165, R166). -/
theorem settlementTake_without_held {s : State} {r : Rack} {v : Settlement} (tag : Byte) (ht : s.Takes (deskOf r))
    (hfull : s.buffer r = some v) (hnone : ∀ n, n ≤ 31 → (s.slot r n).state ≠ .held) :
    ∃ t, exec (.settlementTake (deskOf r) tag []) s = .next t ∧
      t.buffer r = none ∧ (∀ x, x ≠ r → t.buffer x = s.buffer x) ∧
      Answered s t (deskOf r) tag 0x33 ⟨.ok, v.bytes⟩ [] toNone ∧
      t = { s with
        bufferA := t.bufferA, bufferB := t.bufferB, opsPort := t.opsPort, deskAPort := t.deskAPort,
        deskBPort := t.deskBPort, feed := t.feed } := by
  have hexec := settlementTake_full tag ht hfull
  rw [resume_of_none_held (s.setBuffer r none) r (by simpa using hnone)] at hexec
  refine ⟨_, hexec, by simp, fun x hx => by simp [buffer_setBuffer, hx],
    answered_after (.of_ports (setBuffer_port s r none)), ?_⟩
  ext <;> simp [State.after]

/-- Settles O45: each command makes its checks, settles or takes, and the fold over the slots is the resumption slot by
slot. -/
theorem settlementsAreMadeAndTaken : Obligations.SettlementsAreMadeAndTaken := by
  unfold Obligations.SettlementsAreMadeAndTaken
  refine ⟨fun s r tag flags hi lo g ht => accountClose_refusedBy tag flags hi lo g ht,
    fun s r tag ht hempty => settlementTake_empty tag ht hempty, ?closes,
    fun s r tag v ht hfull hnone => settlementTake_without_held tag ht hfull hnone, ?resumes⟩
  case closes =>
    intro s r cond tag hi lo g o ref p ht hindex hfit hallow haccount hentries hempty
    exact accountClose_settles ht hindex hfit hallow (openAccount_of_account s haccount) hentries hempty
  case resumes =>
    intro s r tag v ht hfull emptied
    have hemptied : emptied = s.setBuffer r none := by cases r <;> rfl
    rw [hemptied]
    exact ⟨_, _, resumes_foldl (s.setBuffer r none) r _, settlementTake_full tag ht hfull,
      answered_after (Told.refl _), after_frame _ _ _ _ _⟩

end Sys2Proof.Machine
end

section
/-!
PROOFS. The law of the reservations (R190): the relation `Keeps`, and that every write of a record, of a port and of the
rest of the state keeps it.
-/
namespace Sys2Proof.Machine

-- Reserved views

theorem ViewKept.refl (s : State) (n : RecordName) : ViewKept s s n := by cases n <;> simp [ViewKept]

theorem ViewKept.trans {s t u : State} {n : RecordName} (h : ViewKept s t n) (h' : ViewKept t u n) : ViewKept s u n := by
  cases n with
  | language i => exact Eq.trans h' h
  | tariff k => exact Eq.trans h' h
  | channel c =>
    obtain ⟨hcode, hlanguage, htarget, hfill⟩ := h
    obtain ⟨hcode', hlanguage', htarget', hfill'⟩ := h'
    exact ⟨hcode'.trans hcode, hlanguage'.trans hlanguage, htarget'.trans htarget, hfill'.trans hfill⟩
  | booth b =>
    obtain ⟨hconfig, hseats, hselected, hrequester, hinput, htakers, hlink⟩ := h
    obtain ⟨hconfig', hseats', hselected', hrequester', hinput', htakers', hlink'⟩ := h'
    exact ⟨hconfig'.trans hconfig, fun n h1 h3 => (hseats' n h1 h3).trans (hseats n h1 h3), hselected'.trans hselected,
      hrequester'.trans hrequester, hinput'.trans hinput, htakers'.trans htakers, hlink'.trans hlink⟩
  | account i =>
    obtain ⟨hgeneration, haccount⟩ := h
    obtain ⟨hgeneration', haccount'⟩ := h'
    exact ⟨hgeneration'.trans hgeneration, haccount'.trans haccount⟩

/-- The view that the model compares when it writes a channel tells what R191 names. -/
theorem viewKept_channel {s t : State} {c : Nat} (h : (t.channel c).view = (s.channel c).view) :
    ViewKept s t (.channel c) := by
  have hfill : (t.channel c).floorFill = (s.channel c).floorFill := congrArg Prod.snd h
  obtain ⟨hlanguage, htarget⟩ := view_state h
  refine ⟨?_, hlanguage, htarget, hfill⟩
  have hstate := congrArg Prod.fst h
  unfold Channel.view at hstate
  cases hs : (s.channel c).state <;> cases ht : (t.channel c).state <;> simp_all [ChannelState.code]

/-- The view that the model compares when it writes a booth tells what R192 names. -/
theorem viewKept_booth {s t : State} {b : Nat} (h : (t.booth b).view = (s.booth b).view) : ViewKept s t (.booth b) := by
  simp only [Booth.view, BoothView.mk.injEq, List.cons.injEq, and_true] at h
  obtain ⟨hconfig, ⟨hone, htwo, hthree⟩, hselected, hrequester, hinput, htakers, hlink⟩ := h
  refine ⟨hconfig, fun n h1 h3 => ?_, hselected, hrequester, hinput, htakers, hlink⟩
  obtain rfl | rfl | rfl : n = 1 ∨ n = 2 ∨ n = 3 := by omega
  · exact hone
  · exact htwo
  · exact hthree

/-- The view that the model compares when it writes an account tells what R193 names. -/
theorem viewKept_account {s t : State} {i : Nat} (h : (t.account i).view = (s.account i).view) :
    ViewKept s t (.account i) := by
  unfold Account.view at h
  unfold ViewKept
  cases hs : (s.account i).account <;> cases ht : (t.account i).account <;> simp_all

/-- The tables of the records that can be reserved (R187) are the same. -/
def SameReservable (s t : State) : Prop :=
  t.languages = s.languages ∧ t.channels = s.channels ∧ t.booths = s.booths ∧ t.accounts = s.accounts ∧
    t.tariffs = s.tariffs

theorem SameReservable.viewKept {s t : State} (h : SameReservable s t) (n : RecordName) : ViewKept s t n := by
  obtain ⟨hlanguages, hchannels, hbooths, haccounts, htariffs⟩ := h
  cases n <;>
    simp [ViewKept, State.language, State.channel, State.booth, State.account, State.tariff, hlanguages, hchannels,
      hbooths, haccounts, htariffs]

-- The relation

/-- From `s` to `t` no reservation was made, and each that still stands is on a record whose reserved view stayed. -/
def Keeps (s t : State) : Prop :=
  ∀ p v, (t.port p).reservation = some v → (s.port p).reservation = some v ∧ ViewKept s t v.record

theorem Keeps.refl (s : State) : Keeps s s := fun _ v h => ⟨h, ViewKept.refl s v.record⟩

theorem Keeps.trans {s t u : State} (h : Keeps s t) (h' : Keeps t u) : Keeps s u := by
  intro p v hu
  obtain ⟨ht, hlast⟩ := h' p v hu
  obtain ⟨hs, hfirst⟩ := h p v ht
  exact ⟨hs, ViewKept.trans hfirst hlast⟩

section
variable {s t u : State} (h : Keeps s t)
include h

theorem Keeps.ite {c : Prop} {_ : Decidable c} (hu : Keeps s u) : Keeps s (if c then t else u) := by
  split
  · exact h
  · exact hu

theorem Keeps.foldl {α : Type} {f : State → α → State} (l : List α) (hf : ∀ t x, Keeps s t → Keeps s (f t x)) :
    Keeps s (l.foldl f t) := by
  induction l generalizing t with
  | nil => exact h
  | cons x rest ih => exact ih (hf t x h)

/-- A step that writes no record that can be reserved and makes no reservation. -/
theorem Keeps.plain (htables : SameReservable t u)
    (hports : ∀ p v, (u.port p).reservation = some v → (t.port p).reservation = some v) : Keeps s u :=
  h.trans fun p v hu => ⟨hports p v hu, htables.viewKept v.record⟩

/-- A write of record `n` that clears every port's reservation on it unless its reserved view stays. -/
theorem Keeps.write {n : RecordName} {same : Prop} [Decidable same] (hothers : ∀ m, m ≠ n → ViewKept t u m)
    (hsame : same → ViewKept t u n) (hports : ∀ p, u.port p = if same then t.port p else (t.port p).clearOn n) :
    Keeps s u := by
  refine h.trans fun p v hu => ?_
  rw [hports p] at hu
  split at hu
  next heq =>
    refine ⟨hu, ?_⟩
    by_cases hn : v.record = n
    · exact hn ▸ hsame heq
    · exact hothers v.record hn
  next =>
    rw [clearOn_eq] at hu
    obtain ⟨ht, hn⟩ := Option.filter_eq_some_iff.mp hu
    exact ⟨ht, hothers v.record (by simpa using hn)⟩

-- Writes of the records that can be reserved (R191 to R194)

theorem Keeps.setLanguage {i : Nat} {v : Language} : Keeps s (t.setLanguage i v) := by
  refine h.write (n := .language i) (fun m hm => ?_) (fun heq => ?_) (port_setLanguage t i v)
  · cases m <;> simp_all [ViewKept, language_setLanguage]
  · exact (language_setLanguage_same t i v).trans heq

theorem Keeps.setChannel {c : Nat} {v : Channel} : Keeps s (t.setChannel c v) := by
  refine h.write (n := .channel c) (fun m hm => ?_) (fun heq => viewKept_channel ?_) (port_setChannel t c v)
  · cases m <;> simp_all [ViewKept, channel_setChannel]
  · rw [channel_setChannel_same, heq]

theorem Keeps.setBooth {b : Nat} {v : Booth} : Keeps s (t.setBooth b v) := by
  refine h.write (n := .booth b) (fun m hm => ?_) (fun heq => viewKept_booth ?_) (port_setBooth t b v)
  · cases m <;> simp_all [ViewKept, booth_setBooth]
  · rw [booth_setBooth_same, heq]

theorem Keeps.setAccount {i : Nat} {v : Account} : Keeps s (t.setAccount i v) := by
  refine h.write (n := .account i) (fun m hm => ?_) (fun heq => viewKept_account ?_) (port_setAccount t i v)
  · cases m <;> simp_all [ViewKept, account_setAccount]
  · rw [account_setAccount_same, heq]

theorem Keeps.setTariff {k : Nat} {v : Tariff} : Keeps s (t.setTariff k v) := by
  refine h.write (n := .tariff k) (same := False) (fun m hm => ?_) False.elim fun p => ?_
  · cases m <;> simp_all [ViewKept, tariff_setTariff]
  · simpa using port_setTariff t k v p

-- Writes of a port

theorem Keeps.setPort {p : Port} {q : PortState}
    (hq : ∀ v, q.reservation = some v → (t.port p).reservation = some v) : Keeps s (t.setPort p q) := by
  refine h.plain (by simp [SameReservable]) fun x v hv => ?_
  rw [port_setPort] at hv
  split at hv
  next hx => exact hx ▸ hq v hv
  next => exact hv

theorem Keeps.notify {p : Port} {n : Notice} : Keeps s (t.notify p n) :=
  h.setPort fun _ hv => (post_reservation _ n).symm.trans hv

theorem Keeps.dropReservation {p : Port} : Keeps s (t.dropReservation p) := h.setPort fun _ hv => nomatch hv

theorem Keeps.consume {c : Bool} {p : Port} : Keeps s (t.consume c p) := h.dropReservation.ite h

theorem Keeps.clearPresence {b : Nat} : Keeps s (t.clearPresence b) :=
  h.plain ⟨rfl, rfl, rfl, rfl, rfl⟩ fun p _ hv => by cases p <;> exact hv

theorem Keeps.setFault {b : Nat} : Keeps s (t.setFault b) :=
  h.plain ⟨rfl, rfl, rfl, rfl, rfl⟩ fun p _ hv => by cases p <;> exact hv

theorem Keeps.takeLatches {p : Port} {b : Nat} : Keeps s (t.takeLatches p b) := h.setPort fun _ hv => hv

-- Writes of the rest of the state

theorem Keeps.setRack {r : Rack} {e : RackEngine} : Keeps s (t.setRack r e) :=
  h.plain (by simp [SameReservable]) (by simp)

theorem Keeps.setBuffer {r : Rack} {v : Option Settlement} : Keeps s (t.setBuffer r v) :=
  h.plain (by simp [SameReservable]) (by simp)

theorem Keeps.setReceiver {i : Nat} {v : Option Receiver} : Keeps s (t.setReceiver i v) :=
  h.plain (by simp [SameReservable]) (by simp)

theorem Keeps.setFilter {k : Nat} {v : Filter} : Keeps s (t.setFilter k v) :=
  h.plain (by simp [SameReservable]) (by simp)

theorem Keeps.setReport {k : Nat} {v : ClassReport} : Keeps s (t.setReport k v) :=
  h.plain (by simp [SameReservable]) (by simp)

theorem Keeps.setLine {line : Option (Nat × LinkMessage)} : Keeps s { t with line := line } := h

theorem Keeps.feedWork : Keeps s t.feedWork := h.plain (by simp [SameReservable]) (by simp)

theorem Keeps.feedStart : Keeps s t.feedStart := h

theorem Keeps.hallEvent {effect : State → State} (he : Keeps s (effect t)) : Keeps s (t.hallEvent effect) :=
  he.feedWork.ite h

end

end Sys2Proof.Machine
end

section
/-!
PROOFS. The operations of Chapters 1 to 5 and of the clock keep the law of the reservations (R190): each is a chain of
writes that keep it.
-/
namespace Sys2Proof.Machine

section
variable {s t u : State} (h : Keeps s t)
include h

-- Chapter 1: languages and channels

theorem Keeps.channelChanged {c : Nat} : Keeps s (t.channelChanged c) := h.notify

theorem Keeps.setChannelState {c : Nat} {v : ChannelState} : Keeps s (t.setChannelState c v) := h.setChannel

theorem Keeps.setLanguageChannel {l : Nat} {c : Option Nat} : Keeps s (t.setLanguageChannel l c) := h.setLanguage

theorem Keeps.followOwner {l : Nat} : Keeps s (t.followOwner l) := by
  unfold State.followOwner
  split
  · exact h
  · exact h.ite h.setChannelState.channelChanged

theorem Keeps.setOwner {l : Nat} {owner : Option Nat} : Keeps s (t.setOwner l owner) :=
  h.ite h.setLanguage.notify.followOwner

theorem Keeps.acquire {b l : Nat} (hu : t.acquire b l = some u) : Keeps s u := by
  unfold State.acquire at hu
  split at hu
  · exact Option.some.inj hu ▸ h.setOwner
  · split at hu
    · exact Option.some.inj hu ▸ h
    · exact nomatch hu

theorem Keeps.release {b : Nat} {l : Option Nat} : Keeps s (t.release b l) := by
  cases l with
  | none => exact h
  | some l => exact h.setOwner.ite h

theorem Keeps.switchTo {b y : Nat} {x : Option Nat} (hu : t.switchTo b x y = some u) : Keeps s u := by
  unfold State.switchTo at hu
  split at hu
  · exact Option.some.inj hu ▸ h
  split at hu
  · exact Option.some.inj hu ▸ h.release.setOwner
  · split at hu
    · exact Option.some.inj hu ▸ h.release
    · exact nomatch hu

theorem Keeps.endRedirect {x : Nat} {cause : Cause} : Keeps s (t.endRedirect x cause) := by
  unfold State.endRedirect
  split
  · exact h.setChannelState.channelChanged.notify
  · exact h

theorem Keeps.endRedirectsTo {c : Nat} : Keeps s (t.endRedirectsTo c) :=
  h.foldl _ fun _ _ h => h.endRedirect.ite h

theorem Keeps.retarget {a b x : Nat} : Keeps s (t.retarget a b x) := by
  unfold State.retarget
  split
  · exact h.setChannelState.channelChanged.ite h
  · exact h

theorem Keeps.countHold {c : Nat} : Keeps s (t.countHold c) := by
  unfold State.countHold
  split
  · exact h.endRedirect.ite h.setChannelState
  · exact h

theorem Keeps.countChannelMinute {c : Nat} : Keeps s (t.countChannelMinute c) := by
  unfold State.countChannelMinute
  split
  · exact h.setChannel
  · exact h

-- Chapter 4: the relay map

theorem Keeps.flashLamp {b : Nat} {lamp : FlashLamp} : Keeps s (t.flashLamp b lamp) := h.setBooth

theorem Keeps.leaveSource {x : Nat} : Keeps s (t.leaveSource x) := by
  unfold State.leaveSource
  split
  · exact h
  · exact h.setBooth

theorem Keeps.writeInput {x : Nat} {i : Input} {push : Bool} : Keeps s (t.writeInput x i push) := h.setBooth

theorem Keeps.joinSource {x b : Nat} {push : Bool} : Keeps s (t.joinSource x b push) :=
  h.leaveSource.writeInput.setBooth

theorem Keeps.select {x : Nat} {i : Input} {push : Bool} (hu : t.select x i push = .selected u) : Keeps s u := by
  unfold State.select at hu
  split at hu
  · exact nomatch hu
  split at hu
  · exact Selection.selected.inj hu ▸ h.leaveSource.writeInput
  · split at hu
    · exact nomatch hu
    · exact Selection.selected.inj hu ▸ h.joinSource

theorem Keeps.selectByKey {x : Nat} {i : Input} {push : Bool} : Keeps s (t.selectByKey x i push) := by
  unfold State.selectByKey
  split
  next => exact h
  next u hu => exact h.select hu
  next => exact h.flashLamp

theorem Keeps.floorKey {x : Nat} : Keeps s (t.floorKey x) := h.selectByKey.ite h

theorem Keeps.relayKey {x b : Nat} : Keeps s (t.relayKey x b) := h.selectByKey.ite h

theorem Keeps.previousKey {x : Nat} : Keeps s (t.previousKey x) := h.setBooth.selectByKey.ite h

theorem Keeps.dropTaker {b c : Nat} {cause : Cause} : Keeps s (t.dropTaker b cause c) := h.setBooth.setBooth.notify

theorem Keeps.followOrDropOne {b c : Nat} {language : Option Nat} : Keeps s (t.followOrDropOne b language c) := by
  cases language with
  | none => exact h.dropTaker
  | some l => exact Keeps.ite h.notify h.dropTaker

theorem Keeps.followOrDrop {b : Nat} {language : Option Nat} : Keeps s (t.followOrDrop b language) :=
  h.foldl _ fun _ _ h => h.followOrDropOne

theorem Keeps.relayLoss {b : Nat} : Keeps s (t.relayLoss b) :=
  (h.foldl _ fun _ _ h => h.dropTaker).leaveSource.setBooth

-- Chapters 2 and 3: booths

theorem Keeps.goOffAir {b n : Nat} {language : Option Nat} : Keeps s (t.goOffAir b n language) := h.setBooth.release

theorem Keeps.goOnAir {b n l : Nat} (hu : t.goOnAir b n l = some u) : Keeps s u := by
  unfold State.goOnAir at hu
  split at hu
  next => exact nomatch hu
  next acquired hacquired => exact Option.some.inj hu ▸ (h.acquire hacquired).setBooth

theorem Keeps.transfer {b outgoing incoming : Nat} : Keeps s (t.transfer b outgoing incoming) := h.setBooth.notify

theorem Keeps.micGoOn {b n : Nat} : Keeps s (t.micGoOn b n) := by
  unfold State.micGoOn
  split
  · exact h.flashLamp
  · split
    next => exact h.flashLamp
    next u hu => exact h.goOnAir hu

theorem Keeps.micOff {b n a : Nat} : Keeps s (t.micOff b n a) := by
  unfold State.micOff
  split
  · exact Keeps.ite h.setBooth h.flashLamp
  · split
    · exact h.transfer
    · exact h.setBooth

theorem Keeps.micOn {b n : Nat} : Keeps s (t.micOn b n) := by
  unfold State.micOn
  split
  · exact h.transfer
  · exact h.goOffAir

theorem Keeps.micKey {b n : Nat} : Keeps s (t.micKey b n) := by
  refine Keeps.ite ?_ h
  split
  · exact h
  · split
    · exact h.micGoOn
    · exact h.micOff
  all_goals exact h.micOn

theorem Keeps.muteKey {b n : Nat} {before after : SeatState} : Keeps s (t.muteKey b n before after) := h.setBooth.ite h

theorem Keeps.changeOutput {b : Nat} {o : Output} {former : Option Nat} : Keeps s (t.changeOutput b o former) :=
  h.setBooth.ite h.setBooth.followOrDrop

theorem Keeps.takeOutput {b : Nat} {o : Output} : Keeps s (t.takeOutput b o) := by
  unfold State.takeOutput
  dsimp only
  split
  · split
    next => exact h.flashLamp
    next u hu => exact (h.switchTo hu).changeOutput
  · exact h.changeOutput

theorem Keeps.outputAKey {b : Nat} : Keeps s (t.outputAKey b) := h.ite (h.flashLamp.ite h.takeOutput)

theorem Keeps.outputBKey {b : Nat} : Keeps s (t.outputBKey b) :=
  h.ite (h.flashLamp.ite (h.flashLamp.ite h.takeOutput))

theorem Keeps.overdueTest {b n : Nat} : Keeps s (t.overdueTest b n) := h.setBooth.notify.ite h

theorem Keeps.countSeatMinute {b n : Nat} : Keeps s (t.countSeatMinute b n) := h.setBooth.overdueTest.ite h

theorem Keeps.lapse {b : Nat} : Keeps s (t.lapse b) := by
  unfold State.lapse
  dsimp only
  split
  · exact h
  · exact h.setBooth.notify

theorem Keeps.countWindow {b : Nat} : Keeps s (t.countWindow b) := by
  unfold State.countWindow
  dsimp only
  split
  · exact h
  · exact h.lapse.ite h.setBooth

theorem Keeps.configLanguage {b : Nat} {x : Option Nat} : Keeps s (t.configLanguage b x) := by
  unfold State.configLanguage
  dsimp only
  split
  · exact h
  split
  · exact h.goOffAir
  · split
    next u hu => exact h.switchTo hu
    next => exact h.goOffAir

theorem Keeps.configRelay {b : Nat} : Keeps s (t.configRelay b) := by
  unfold State.configRelay
  dsimp only
  split
  · exact h
  split
  · exact h.dropTaker
  · exact h.ite h.dropTaker

theorem Keeps.configRelays {b : Nat} {changed : Bool} {y : Option Nat} : Keeps s (t.configRelays b changed y) :=
  h.foldl _ fun _ _ h => h.configRelay.ite h.followOrDropOne

theorem Keeps.configure {b : Nat} {c : BoothConfig} : Keeps s (t.configure b c) := by
  unfold State.configure
  extract_lets v written y switched relayed
  have hwritten : Keeps s written := h.setBooth
  have hswitched : Keeps s switched := hwritten.ite hwritten.configLanguage
  have hrelayed : Keeps s relayed := hswitched.configRelays
  split
  · exact hrelayed
  · exact hrelayed.ite hrelayed.overdueTest

theorem Keeps.forceTake {b n : Nat} : Keeps s (t.forceTake b n).1 := by
  unfold State.forceTake
  dsimp only
  split
  · split
    · exact h
    · exact h.transfer
  split
  · exact h
  · split
    next => exact h
    next u hu => exact h.goOnAir hu

-- Chapter 5: the booth link

theorem Keeps.setLink {b : Nat} {k : Link} : Keeps s (t.setLink b k) := h.setBooth

theorem Keeps.inSlot {b : Nat} {own : State → State} (hown : ∀ t, Keeps s t → Keeps s (own t)) :
    Keeps s (t.inSlot b own) := by
  unfold State.inSlot
  split
  · exact h
  · split
    · exact hown _ h.setLine
    · exact h

theorem Keeps.controllerLoss {b : Nat} : Keeps s (t.controllerLoss b) := by
  refine Keeps.setBooth ?_
  split
  · exact h
  · exact h.goOffAir

theorem Keeps.loseBooth {b : Nat} {cause : Cause} : Keeps s (t.loseBooth b cause) := by
  unfold State.loseBooth
  extract_lets seat k unlinked
  have hunlinked : Keeps s unlinked := h.setLink
  exact hunlinked.notify.controllerLoss.relayLoss.clearPresence

theorem Keeps.judge {b : Nat} {a : Abilities} : Keeps s (t.judge b a) := h.setLink.notify.setFault.ite h.setLink

theorem Keeps.noAcknowledgement {b : Nat} : Keeps s (t.noAcknowledgement b) := h.setLink.ite h

theorem Keeps.join {b : Nat} {g : Abilities} : Keeps s (t.join b g) := h.setBooth.notify

theorem Keeps.missedPoll {b : Nat} : Keeps s (t.missedPoll b) := h.loseBooth.ite h.setLink

theorem Keeps.unanswered {b : Nat} : Keeps s (t.unanswered b) := by
  unfold State.unanswered
  split
  · exact h
  · exact h
  · exact h.noAcknowledgement
  · exact h.missedPoll

theorem Keeps.deliver {b : Nat} {e : KeyEvent} : Keeps s (t.deliver b e) := by
  cases e with
  | mic n => exact h.micKey.feedWork
  | muteDown n => exact h.muteKey.feedWork
  | muteUp n => exact h.muteKey.feedWork
  | outputA => exact h.outputAKey.feedWork
  | outputB => exact h.outputBKey.feedWork
  | floorSel => exact h.floorKey.feedWork
  | relaySel x => exact h.relayKey.feedWork
  | previous => exact h.previousKey.feedWork
  | other _ => exact h

theorem Keeps.takeReply {b : Nat} {sequence : Fin 2} {events : List KeyEvent} :
    Keeps s (t.takeReply b sequence events) :=
  h.missedPoll.ite (h.setLink.ite (h.foldl _ fun _ _ h => h.deliver).setLink)

theorem Keeps.statusReply {b : Nat} {sequence : Fin 2} {events : List KeyEvent} :
    Keeps s (t.statusReply b sequence events) := h.ite (h.takeReply.ite h.unanswered)

theorem Keeps.takeAdvertise {b : Nat} {a : Abilities} : Keeps s (t.takeAdvertise b a) := by
  refine h.ite ?_
  split
  · exact h.judge
  · exact h.noAcknowledgement
  · exact h.loseBooth.judge
  · exact h

theorem Keeps.takeGrantAck {b : Nat} {taken : Abilities} : Keeps s (t.takeGrantAck b taken) :=
  h.ite (h.join.ite h.unanswered)

theorem Keeps.endFaultWait {b : Nat} : Keeps s (t.endFaultWait b) := h.setLink.ite h

theorem Keeps.countWait {b : Nat} : Keeps s (t.countWait b) := (h.endFaultWait.ite h.setLink).ite h

theorem Keeps.beginSlot {b : Nat} : Keeps s (t.beginSlot b) := by
  refine Keeps.ite ?_ h.setLine
  exact Keeps.ite h.setLine.setLink h.setLine

theorem Keeps.boothSlot {b : Nat} : Keeps s (t.boothSlot b) :=
  ((h.foldl _ fun _ _ h => h.countWait).ite h).beginSlot

-- Section 11.1: the clock

theorem Keeps.tickMinute : Keeps s t.tickMinute := by
  have hclock : Keeps s { t with second := 0, minute := satAdd Config.topMinute t.minute 1 } := h
  exact (hclock.foldl _ fun _ _ h => h.countChannelMinute).foldl _ fun _ _ h => h.countSeatMinute

theorem Keeps.countSecond : Keeps s t.countSecond := h.tickMinute.ite h

theorem Keeps.tickSecond : Keeps s t.tickSecond :=
  ((h.foldl _ fun _ _ h => h.countHold).foldl _ fun _ _ h => h.countWindow).countSecond

end

end Sys2Proof.Machine
end

section
/-!
PROOFS. The operations of Chapters 6 to 8 keep the law of the reservations (R190): accounts and settlements, the racks and
their transactions.
-/
namespace Sys2Proof.Machine

section
variable {s t : State} (h : Keeps s t)
include h

-- Entries, listeners and slots

theorem Keeps.setSlot {r : Rack} {n : Nat} {v : Slot} : Keeps s (t.setSlot r n v) := h.setRack

theorem Keeps.addListener {l : Nat} : Keeps s (t.addListener l) := h.setLanguage

theorem Keeps.dropListener {l : Nat} : Keeps s (t.dropListener l) := h.setLanguage

theorem Keeps.setOpen {ref : AccountRef} {o : OpenAccount} : Keeps s (t.setOpen ref o) := h.setAccount

theorem Keeps.removeEntry {ref : AccountRef} {i : Nat} : Keeps s (t.removeEntry ref i) := by
  unfold State.removeEntry
  split
  · exact h
  · exact h.setOpen

theorem Keeps.holdEntry {ref : AccountRef} {i : Nat} : Keeps s (t.holdEntry ref i) := by
  unfold State.holdEntry
  split
  · exact h
  · exact h.setOpen

-- Chapter 8: settlements and returns

theorem Keeps.settle {ref : AccountRef} {o : OpenAccount} {r : Rack} : Keeps s (t.settle ref o r) :=
  h.setBuffer.setAccount.setReport.notify

theorem Keeps.commitReturn {r : Rack} {n : Nat} {w : ReturnWork} : Keeps s (t.commitReturn r n w) :=
  h.setOpen.setReceiver.dropListener.setSlot.notify

theorem Keeps.commit {r : Rack} {n : Nat} {w : ReturnWork} : Keeps s (t.commit r n w) := by
  rw [commit_eq]
  exact h.commitReturn.settle.ite h.commitReturn

theorem Keeps.holdReturn {r : Rack} {n : Nat} {w : ReturnWork} : Keeps s (t.holdReturn r n w) := h.setSlot.notify

theorem Keeps.decideReturn {r : Rack} {n : Nat} {w : ReturnWork} : Keeps s (t.decideReturn r n w) :=
  h.holdReturn.ite h.commit

theorem Keeps.returnMarked {r : Rack} {n : Nat} : Keeps s (t.returnMarked r n) := by
  unfold State.returnMarked
  dsimp only
  split
  · exact h.setSlot
  · exact h.setSlot.decideReturn

theorem Keeps.tellAbandoned {r : Rack} {n : Nat} {former : Slot} {cause : Cause} :
    Keeps s (t.tellAbandoned r n former cause) := by
  unfold State.tellAbandoned
  split
  · exact h
  · split
    · exact h.notify
    all_goals exact h

theorem Keeps.resumeSlot {r : Rack} {n : Nat} : Keeps s (t.resumeSlot r n) := by
  refine h.ite ?_
  split
  · exact h
  · exact h.decideReturn

theorem Keeps.resume {r : Rack} : Keeps s (t.resume r) := h.foldl _ fun _ _ h => h.resumeSlot

theorem Keeps.lose {p : Port} {i l : Nat} {v : Receiver} {ref : AccountRef} {issuing : Rack} {issued : Stamp}
    {o : OpenAccount} : Keeps s (t.lose p i v ref l issuing issued o).1 := by
  unfold State.lose
  dsimp only
  split
  · exact h.setOpen.setReceiver.dropListener.settle
  · exact h.setOpen.setReceiver.dropListener

-- Chapter 6: the rack engines

theorem Keeps.setBus {r : Rack} {b : Bus} : Keeps s (t.setBus r b) := h.setRack

theorem Keeps.kickRack {r : Rack} : Keeps s (t.kickRack r) := by
  obtain ⟨bus, due, hkick⟩ := kickRack_eq t r
  exact hkick ▸ h.setRack

theorem Keeps.scanRound {r : Rack} : Keeps s (t.scanRound r) := h.setRack.kickRack

theorem Keeps.dropQueued {r : Rack} {n : Nat} : Keeps s (t.dropQueued r n) := h.setRack

theorem Keeps.failIssue {r : Rack} {n : Nat} {former : Slot} {cause : Cause} :
    Keeps s (t.failIssue r n former cause) := by
  unfold State.failIssue
  split
  · exact h.setReceiver.removeEntry.dropListener.dropQueued.notify
  · exact h

theorem Keeps.failWork {r : Rack} {n : Nat} {former : Slot} {cause : Cause} :
    Keeps s (t.failWork r n former cause) := by
  unfold State.failWork
  split
  · exact h.failIssue
  · exact h.tellAbandoned
  · exact h.tellAbandoned
  all_goals exact h

theorem Keeps.faultSlot {r : Rack} {n : Nat} {kind : TransactionKind} : Keeps s (t.faultSlot r n kind) :=
  h.setSlot.notify.failWork

theorem Keeps.departSlot {r : Rack} {n : Nat} : Keeps s (t.departSlot r n) := h.setSlot.failWork

theorem Keeps.slotLeft {r : Rack} {n : Nat} : Keeps s (t.slotLeft r n) := h.setSlot.failWork.notify

theorem Keeps.dockEnd {r : Rack} {answers : Transaction → Bool} {lineFault : Bool} {own : Transaction → State → State}
    (hown : ∀ w t, Keeps s t → Keeps s (own w t)) : Keeps s (t.dockEnd r answers lineFault own) := by
  unfold State.dockEnd
  split
  · exact h
  · exact h.setBus.kickRack.ite h
  · exact h.ite ((h.setBus.faultSlot.kickRack.ite h.setSlot).ite (hown _ _ h.setBus.setSlot).kickRack)

theorem Keeps.probeAnswer {r : Rack} {n : Nat} : Keeps s (t.probeAnswer r n) := by
  unfold State.probeAnswer
  dsimp only
  split
  · exact h.setSlot
  · exact h.setSlot
  · exact h.setSlot
  · exact h.setSlot
  · exact h.setSlot
  all_goals exact h

theorem Keeps.probeMiss {r : Rack} {n : Nat} : Keeps s (t.probeMiss r n) := by
  unfold State.probeMiss
  dsimp only
  split
  · exact h.setSlot
  · exact h.setSlot
  · exact h.slotLeft
  · exact h.slotLeft.ite h.setSlot
  · exact h.slotLeft.ite h.setSlot
  all_goals exact h

theorem Keeps.identIssued {r : Rack} {n : Nat} {ident : Ident} : Keeps s (t.identIssued r n ident) :=
  h.setSlot.notify.ite h.setSlot

theorem Keeps.identDone {r : Rack} {n : Nat} {ident : Ident} : Keeps s (t.identDone r n ident) := by
  unfold State.identDone
  split
  · exact h.setSlot.notify
  · dsimp only
    split
    · exact h.setReceiver.setSlot.notify.ite h.setReceiver.setSlot
    · exact h.setReceiver.setSlot.notify.ite h.setReceiver.setSlot
    · exact h.setReceiver.identIssued
    · exact h.setReceiver.setSlot
    · exact h.setReceiver.setSlot.notify

theorem Keeps.repairDone {r : Rack} {n : Nat} {ident : Ident} : Keeps s (t.repairDone r n ident) := by
  unfold State.repairDone
  dsimp only
  split
  · exact h.setSlot.notify
  · split
    · exact h.setReceiver.setSlot.notify.notify
    · exact h.setSlot.notify
    · exact h.setSlot.notify
    · exact h.setSlot.notify
    · exact h.identIssued

theorem Keeps.presetDone {r : Rack} {channel : Nat} : Keeps s (t.presetDone r channel) := by
  unfold State.presetDone
  split
  · exact h
  · exact h.setRack

theorem Keeps.completeIssue {r : Rack} : Keeps s (t.completeIssue r) := by
  unfold State.completeIssue
  split
  · exact h
  · dsimp only
    split
    · exact h
    · exact h.setReceiver.holdEntry.setSlot.setRack.notify

theorem Keeps.acceptIssue {r : Rack} {ref : AccountRef} {o : OpenAccount} {n l i : Nat} {v : Receiver} :
    Keeps s (t.acceptIssue r ref o n l i v) :=
  h.setReceiver.setOpen.addListener.setSlot.setRack.kickRack

theorem Keeps.rackReset {r : Rack} : Keeps s (t.rackReset r) :=
  (h.foldl _ fun _ _ h => h.failIssue).setRack.kickRack

end

end Sys2Proof.Machine
end

section
/-!
PROOFS. The client commands and the starts keep the law of the reservations (R190); READ_RESERVE alone makes one (R188).
-/
namespace Sys2Proof.Machine

-- The law

/-- The law of R190 as a step meets it: a reservation that stands after it is on a record whose reserved view it left. -/
def Lawful (s t : State) : Prop := ∀ p v, (t.port p).reservation = some v → ViewKept s t v.record

theorem Keeps.lawful {s t : State} (h : Keeps s t) : Lawful s t := fun p v hv => (h p v hv).2

theorem SameReservable.lawful {s t : State} (h : SameReservable s t) : Lawful s t := fun _ v _ => h.viewKept v.record

theorem SameReservable.trans {s t u : State} (h : SameReservable s t) (h' : SameReservable t u) : SameReservable s u := by
  simp_all [SameReservable]

theorem sameReservable_setPort (s : State) (p : Port) (q : PortState) : SameReservable s (s.setPort p q) := by
  simp [SameReservable]

/-- After a step that meets the law, one that makes no reservation. -/
theorem Lawful.trans_keeps {s t u : State} (h : Lawful s t) (h' : Keeps t u) : Lawful s u := fun p v hv =>
  have ⟨ht, hlast⟩ := h' p v hv
  ViewKept.trans (h p v ht) hlast

/-- Before a step that meets the law, one that writes no record that can be reserved. -/
theorem SameReservable.trans_lawful {s t u : State} (h : SameReservable s t) (h' : Lawful t u) : Lawful s u :=
  fun p v hv => ViewKept.trans (h.viewKept v.record) (h' p v hv)

-- The client commands, by chapter: a command that is refused, or that writes no record that can be reserved, leaves the
-- ports and those records as they were.

section
variable (s : State) (p : Port) (payload : List Byte)

theorem keeps_doLangDefine : Keeps s (doLangDefine p payload s).1 := by
  unfold doLangDefine
  dsimp only
  repeat' split
  any_goals exact .refl s
  · exact (Keeps.refl s).setLanguage.consume
  · exact (Keeps.refl s).setLanguage.consume

theorem keeps_doLangRemove : Keeps s (doLangRemove p payload s).1 := by
  unfold doLangRemove
  dsimp only
  repeat' split
  any_goals exact .refl s
  exact (Keeps.refl s).setLanguage

theorem keeps_doChanMap : Keeps s (doChanMap p payload s).1 := by
  unfold doChanMap
  dsimp only
  repeat' split
  any_goals exact .refl s
  exact (Keeps.refl s).setChannelState.setLanguageChannel.channelChanged

theorem keeps_doChanUnmap : Keeps s (doChanUnmap p payload s).1 := by
  unfold doChanUnmap
  dsimp only
  repeat' split
  any_goals exact .refl s
  exact (Keeps.refl s).setChannelState.setLanguageChannel.channelChanged.endRedirectsTo.consume

theorem keeps_doChanMove : Keeps s (doChanMove p payload s).1 := by
  unfold doChanMove
  dsimp only
  repeat' split
  any_goals exact .refl s
  refine (Keeps.foldl ?_ _ fun _ _ h => h.retarget).consume
  exact (Keeps.refl s).setChannelState.setLanguageChannel.setChannelState.channelChanged.channelChanged

theorem keeps_doChanFloorfill : Keeps s (doChanFloorfill p payload s).1 := by
  unfold doChanFloorfill
  dsimp only
  repeat' split
  any_goals exact .refl s
  exact (Keeps.refl s).setChannel.channelChanged

theorem keeps_doBoothConfig : Keeps s (doBoothConfig p payload s).1 := by
  unfold doBoothConfig
  dsimp only
  repeat' split
  any_goals exact .refl s
  · exact (Keeps.refl s).consume
  · exact (Keeps.refl s).configure.consume

theorem keeps_doBoothInput : Keeps s (doBoothInput p payload s).1 := by
  unfold doBoothInput
  dsimp only
  repeat' split
  any_goals exact .refl s
  next u hu => exact (Keeps.refl s).select hu

theorem keeps_doSeatForceTake : Keeps s (doSeatForceTake p payload s).1 := by
  unfold doSeatForceTake
  dsimp only
  repeat' split
  any_goals exact .refl s
  exact (Keeps.refl s).forceTake

theorem keeps_doSeatForceOff : Keeps s (doSeatForceOff p payload s).1 := by
  unfold doSeatForceOff
  dsimp only
  repeat' split
  any_goals exact .refl s
  exact (Keeps.refl s).goOffAir

theorem keeps_doTariffWrite : Keeps s (doTariffWrite p payload s).1 := by
  unfold doTariffWrite
  dsimp only
  repeat' split
  any_goals exact .refl s
  exact (Keeps.refl s).setTariff.consume

theorem keeps_doFilterWrite : Keeps s (doFilterWrite p payload s).1 := by
  unfold doFilterWrite
  dsimp only
  repeat' split
  all_goals exact .refl s

theorem keeps_doClockSet : Keeps s (doClockSet p payload s).1 := by
  unfold doClockSet
  split
  all_goals exact .refl s

theorem keeps_doReceiverEnroll : Keeps s (doReceiverEnroll p payload s).1 := by
  unfold doReceiverEnroll
  dsimp only
  repeat' split
  all_goals exact .refl s

theorem keeps_doReceiverRetire : Keeps s (doReceiverRetire p payload s).1 := by
  unfold doReceiverRetire
  dsimp only
  repeat' split
  all_goals exact .refl s

theorem keeps_doReceiverService : Keeps s (doReceiverService p payload s).1 := by
  unfold doReceiverService
  dsimp only
  repeat' split
  all_goals exact .refl s

theorem keeps_doReportClear : Keeps s (doReportClear p payload s).1 := by
  unfold doReportClear
  repeat' split
  all_goals dsimp only [refuse]
  · exact (Keeps.refl s).foldl _ fun _ _ h => h.setChannel
  · exact (Keeps.refl s).foldl _ fun _ _ h => h.setBooth
  · exact (Keeps.refl s).foldl _ fun _ _ h => h.setReport
  all_goals exact .refl s

theorem keeps_doProfileWrite : Keeps s (doProfileWrite p payload s).1 := by
  unfold doProfileWrite
  split
  all_goals exact .refl s

theorem keeps_doAccountOpen : Keeps s (doAccountOpen p payload s).1 := by
  unfold doAccountOpen
  dsimp only
  repeat' split
  any_goals exact .refl s
  exact (Keeps.refl s).setOpen

theorem keeps_doAccountFind : Keeps s (doAccountFind p payload s).1 := by
  unfold doAccountFind
  split
  all_goals exact .refl s

theorem keeps_doAccountClose : Keeps s (doAccountClose p payload s).1 := by
  unfold doAccountClose
  dsimp only
  repeat' split
  any_goals exact .refl s
  exact (Keeps.refl s).settle.consume

theorem keeps_doAccountAdjust : Keeps s (doAccountAdjust p payload s).1 := by
  unfold doAccountAdjust
  dsimp only
  repeat' split
  any_goals exact .refl s
  exact (Keeps.refl s).setOpen.consume

theorem keeps_doLossDeclare : Keeps s (doLossDeclare p payload s).1 := by
  unfold doLossDeclare
  dsimp only
  repeat' split
  any_goals exact .refl s
  exact (Keeps.refl s).lose

theorem keeps_doSettlementTake : Keeps s (doSettlementTake p payload s).1 := by
  unfold doSettlementTake
  repeat' split
  any_goals exact .refl s
  exact (Keeps.refl s).setBuffer.resume

theorem keeps_doIssue : Keeps s (doIssue p payload s).1 := by
  unfold doIssue
  dsimp only
  repeat' split
  any_goals exact .refl s
  exact (Keeps.refl s).acceptIssue

theorem keeps_doSlotClear : Keeps s (doSlotClear p payload s).1 := by
  unfold doSlotClear
  repeat' split
  any_goals exact .refl s
  exact (Keeps.refl s).setSlot

theorem keeps_doRackReset : Keeps s (doRackReset p payload s).1 := by
  unfold doRackReset
  repeat' split
  any_goals exact .refl s
  exact (Keeps.refl s).rackReset

theorem keeps_doEnrollSlot : Keeps s (doEnrollSlot p payload s).1 := by
  unfold doEnrollSlot
  dsimp only
  repeat' split
  all_goals exact .refl s

theorem afterFinding_cases (f : Finding) : s.afterFinding p f = s ∨ ∃ b, s.afterFinding p f = s.takeLatches p b := by
  unfold State.afterFinding
  split
  · exact .inl rfl
  · exact .inr ⟨_, rfl⟩

theorem keeps_doRead : Keeps s (doRead p payload s).1 := by
  unfold doRead
  split
  · dsimp only
    obtain hread | ⟨b, hread⟩ := afterFinding_cases s p _ <;> rw [hread]
    · exact .refl s
    · exact (Keeps.refl s).takeLatches
  · exact .refl s

/-- READ_RESERVE makes a reservation and writes no record (R188). -/
theorem sameReservable_doReadReserve : SameReservable s (doReadReserve p payload s).1 := by
  have hreserve (t : State) (f : Finding) (h : SameReservable s t) : SameReservable s (t.reserve p f) := by
    unfold State.reserve
    split
    · exact h
    · exact h.trans (sameReservable_setPort t p _)
  unfold doReadReserve
  dsimp only
  repeat' split
  any_goals exact ⟨rfl, rfl, rfl, rfl, rfl⟩
  refine hreserve _ _ ?_
  obtain hread | ⟨b, hread⟩ := afterFinding_cases s p _ <;> rw [hread]
  · exact ⟨rfl, rfl, rfl, rfl, rfl⟩
  · exact sameReservable_setPort s p _

/-- Every command's own rule meets the law of the reservations. -/
theorem lawful_perform (name : CommandName) : Lawful s (perform name p payload s).1 := by
  cases name with
  | readReserve => exact (sameReservable_doReadReserve s p payload).lawful
  | status => exact ((Keeps.refl s).setPort (q := { s.port p with frameError := false }) fun _ hv => hv).lawful
  | read => exact (keeps_doRead s p payload).lawful
  | reserveDrop => exact (Keeps.refl s).dropReservation.lawful
  | langDefine => exact (keeps_doLangDefine s p payload).lawful
  | langRemove => exact (keeps_doLangRemove s p payload).lawful
  | chanMap => exact (keeps_doChanMap s p payload).lawful
  | chanUnmap => exact (keeps_doChanUnmap s p payload).lawful
  | chanMove => exact (keeps_doChanMove s p payload).lawful
  | chanFloorfill => exact (keeps_doChanFloorfill s p payload).lawful
  | boothConfig => exact (keeps_doBoothConfig s p payload).lawful
  | boothInput => exact (keeps_doBoothInput s p payload).lawful
  | seatForceTake => exact (keeps_doSeatForceTake s p payload).lawful
  | seatForceOff => exact (keeps_doSeatForceOff s p payload).lawful
  | tariffWrite => exact (keeps_doTariffWrite s p payload).lawful
  | filterWrite => exact (keeps_doFilterWrite s p payload).lawful
  | clockSet => exact (keeps_doClockSet s p payload).lawful
  | dayClose => exact (Keeps.refl s).lawful
  | receiverEnroll => exact (keeps_doReceiverEnroll s p payload).lawful
  | receiverRetire => exact (keeps_doReceiverRetire s p payload).lawful
  | receiverService => exact (keeps_doReceiverService s p payload).lawful
  | reportClear => exact (keeps_doReportClear s p payload).lawful
  | profileRead => exact (Keeps.refl s).lawful
  | profileWrite => exact (keeps_doProfileWrite s p payload).lawful
  | accountOpen => exact (keeps_doAccountOpen s p payload).lawful
  | accountFind => exact (keeps_doAccountFind s p payload).lawful
  | accountClose => exact (keeps_doAccountClose s p payload).lawful
  | issue => exact (keeps_doIssue s p payload).lawful
  | settlementTake => exact (keeps_doSettlementTake s p payload).lawful
  | slotClear => exact (keeps_doSlotClear s p payload).lawful
  | rackReset => exact (keeps_doRackReset s p payload).lawful
  | enrollSlot => exact (keeps_doEnrollSlot s p payload).lawful
  | accountAdjust => exact (keeps_doAccountAdjust s p payload).lawful
  | lossDeclare => exact (keeps_doLossDeclare s p payload).lawful

/-- The checks of R177 come before a command's own rule, and a command they refuse changes nothing. -/
theorem lawful_answer (name : CommandName) : Lawful s (s.answer name p payload (perform name p payload)).1 := by
  unfold State.answer
  split
  · exact (Keeps.refl s).lawful
  split
  · exact (Keeps.refl s).lawful
  split
  · exact (Keeps.refl s).lawful
  · exact lawful_perform s p payload name

theorem lawful_perform_code (code : Byte) : Lawful s (s.perform p code payload).1 := by
  unfold State.perform
  split
  · unfold State.answerUnknown
    split
    all_goals exact (Keeps.refl s).lawful
  · exact lawful_answer s p payload _

end

end Sys2Proof.Machine
end

section
/-!
PROOFS. The ports, the starts and the rows of the table keep the law of the reservations (R190); RESERVE_DROP (R189).
-/
namespace Sys2Proof.Machine

-- The ports: no frame, byte or choice of a frame makes a reservation

theorem chooseFrame_reservation (q : PortState) : q.chooseFrame.reservation = q.reservation :=
  (congrArg PortState.reservation (chooseFrame_withReservation q q.reservation) :)

theorem hand_reservation (q : PortState) (tag code : Byte) (reply : Reply) :
    (q.hand tag code reply).reservation = q.reservation := chooseFrame_reservation _

/-- A command in hand stays in hand while the next frame is chosen. -/
theorem chooseFrame_inHand (q : PortState) : q.chooseFrame.inHand.isSome = q.inHand.isSome := by
  have hsend : q.sendNotice.inHand.isSome = q.inHand.isSome := by
    unfold PortState.sendNotice
    split
    · rfl
    · exact Option.isSome_map
  unfold PortState.chooseFrame
  split
  · rfl
  split
  next hand hsome =>
    repeat' split
    any_goals exact hsend
    · rfl
    · rw [hsome]; rfl
  next =>
    split
    · rfl
    · exact hsend

/-- A byte writes the framer, the received commands and the frame-error flag of its port alone (R173 to R175). -/
theorem takeByte_frame (q : PortState) (b : LineByte) :
    ∃ framer received frameError,
      q.takeByte b = { q with framer := framer, received := received, frameError := frameError } := by
  have hstore (remaining : Nat) (stored : List Byte) (spoilt : Bool) (b : Byte) :
      ∃ framer, q.storeByte remaining stored spoilt b = { q with framer := framer } := by
    unfold PortState.storeByte
    split
    all_goals exact ⟨_, rfl⟩
  unfold PortState.takeByte
  split
  · split
    all_goals exact ⟨_, _, _, rfl⟩
  · split
    · exact ⟨_, _, _, rfl⟩
    · obtain ⟨framer, hq⟩ := hstore _ _ _ _
      exact ⟨_, _, _, hq⟩
  · obtain ⟨framer, hq⟩ := hstore _ _ _ _
    rw [hq]
    unfold PortState.endFrame
    repeat' split
    all_goals exact ⟨_, _, _, rfl⟩

theorem takeByte_inHand (q : PortState) (b : LineByte) : (q.takeByte b).inHand = q.inHand := by
  obtain ⟨framer, received, frameError, hbyte⟩ := takeByte_frame q b
  rw [hbyte]

theorem takeByte_reservation (q : PortState) (b : LineByte) : (q.takeByte b).reservation = q.reservation := by
  obtain ⟨framer, received, frameError, hbyte⟩ := takeByte_frame q b
  rw [hbyte]

section
variable {s t : State} (h : Keeps s t)
include h

theorem Keeps.choose {p : Port} : Keeps s (t.choose p) :=
  h.setPort fun _ hv => (chooseFrame_reservation _).symm.trans hv

theorem Keeps.setHold {p : Port} {hold : Bool} : Keeps s (t.setHold p hold) := h.setPort fun _ hv => hv

/-- The reply joins the port, and the feed link follows (R176). -/
theorem Keeps.handed {p : Port} {tag code : Byte} {reply : Reply} :
    Keeps s (t.setPort p ((t.port p).hand tag code reply)).feedWork :=
  (h.setPort fun _ hv => (hand_reservation _ tag code reply).symm.trans hv).feedWork

end

-- The taking of a command (R176)

variable (s : State) (p : Port)

theorem lawful_take (tag code : Byte) {own : State → State × Reply} (hown : Lawful s (own s).1) :
    Lawful s (s.take p tag code own) := hown.trans_keeps (Keeps.refl _).handed

theorem take_inHand (tag code : Byte) (own : State → State × Reply) :
    ((s.take p tag code own).port p).inHand.isSome = true := by
  rw [port_take, if_pos rfl]
  exact chooseFrame_inHand _

theorem keep_reservation (q : PortState) (code tag : Byte) (payload : List Byte) :
    (q.keep code tag payload).reservation = q.reservation := by
  unfold PortState.keep
  dsimp only
  split
  all_goals rfl

theorem lawful_command (tag code : Byte) (payload : List Byte) {own : State → State × Reply}
    (hown : Lawful s (own s).1) : Lawful s (s.command p tag code payload own) := by
  unfold State.command
  split
  · exact (Keeps.refl s).lawful
  split
  · exact lawful_take s p tag code hown
  · exact ((Keeps.refl s).setPort fun _ hv => (keep_reservation _ code tag payload).symm.trans hv).lawful

/-- A client command's row of the table meets the law. -/
theorem lawful_client (name : CommandName) (tag : Byte) (payload : List Byte) :
    Lawful s (s.command p tag name.code payload fun s => s.answer name p payload (perform name p payload)) :=
  lawful_command s p tag name.code payload (lawful_answer s p payload name)

/-- A received command is taken if none is in hand, or nothing happens (R176). -/
theorem takeNext_cases :
    s.takeNext p = s ∨
      ∃ q tag code payload,
        s.takeNext p = (s.setPort p q).take p tag code fun s => s.perform p code payload := by
  unfold State.takeNext
  dsimp only
  split
  · exact .inr ⟨_, _, _, _, rfl⟩
  · exact .inl rfl

theorem takeNext_of_inHand (hhand : (s.port p).inHand.isSome = true) : s.takeNext p = s := by
  unfold State.takeNext
  dsimp only
  split
  next hnone _ => simp [hnone] at hhand
  next => rfl

/-- The taking of a received command meets the law, and leaves a command in hand if it takes one. -/
theorem lawful_takeNext :
    s.takeNext p = s ∨ (Lawful s (s.takeNext p) ∧ ((s.takeNext p).port p).inHand.isSome = true) := by
  obtain hsame | ⟨q, tag, code, payload, htake⟩ := takeNext_cases s p
  · exact .inl hsame
  · rw [htake]
    have hlaw : Lawful (s.setPort p q) ((s.setPort p q).take p tag code fun s => s.perform p code payload) :=
      lawful_take _ p tag code (lawful_perform_code _ p payload code)
    exact .inr ⟨(sameReservable_setPort s p q).trans_lawful hlaw, take_inHand _ p tag code _⟩

-- FRAME_RECEIVED: of the bytes of one row at most one completes a command that is taken (R176)

/-- So far the bytes have written no record that can be reserved, or a command has been taken, lawfully, and is in hand. -/
def Receives (s t : State) (p : Port) : Prop :=
  SameReservable s t ∨ (Lawful s t ∧ (t.port p).inHand.isSome = true)

theorem Receives.lawful {s t : State} {p : Port} (h : Receives s t p) : Lawful s t := by
  obtain hsame | ⟨hlaw, _⟩ := h
  · exact hsame.lawful
  · exact hlaw

theorem Receives.receiveByte {s t : State} {p : Port} (h : Receives s t p) (b : LineByte) :
    Receives s (t.receiveByte p b) p := by
  unfold State.receiveByte
  obtain hsame | ⟨hlaw, hhand⟩ := h
  · have hstored : SameReservable s (t.setPort p ((t.port p).takeByte b)) := hsame.trans (sameReservable_setPort t p _)
    obtain hnone | ⟨htake, htaken⟩ := lawful_takeNext (t.setPort p ((t.port p).takeByte b)) p
    · rw [hnone]
      exact .inl hstored
    · exact .inr ⟨hstored.trans_lawful htake, htaken⟩
  · have hstill : ((t.setPort p ((t.port p).takeByte b)).port p).inHand.isSome = true := by
      rw [port_setPort_same, takeByte_inHand, hhand]
    rw [takeNext_of_inHand _ p hstill]
    exact .inr ⟨hlaw.trans_keeps ((Keeps.refl t).setPort fun _ hv => (takeByte_reservation _ b).symm.trans hv), hstill⟩

theorem Receives.receiveBytes {s t : State} {p : Port} (h : Receives s t p) (bytes : List LineByte) :
    Receives s (bytes.foldl (State.receiveByte p) t) p := by
  induction bytes generalizing t with
  | nil => exact h
  | cons b rest ih => exact ih (h.receiveByte b)

theorem lawful_frameReceived (hold : Bool) (bytes : List LineByte) :
    ∃ t, exec (.frameReceived p hold bytes) s = .next t ∧ Lawful s t := by
  refine ⟨_, rfl, ?_⟩
  have hheld : SameReservable s (s.setHold p hold) := sameReservable_setPort s p _
  dsimp only
  split
  · exact hheld.lawful
  · exact (Receives.receiveBytes (.inl (hheld.trans (sameReservable_setPort _ p _))) bytes).lawful

theorem lawful_endFrame : Lawful s (s.endFrame p) := by
  unfold State.endFrame
  dsimp only
  split
  · exact (Keeps.refl s).lawful
  · exact (sameReservable_setPort s p _).lawful
  · obtain hnone | ⟨htake, _⟩ := lawful_takeNext (s.setPort p _) p
    · rw [hnone]
      exact (sameReservable_setPort s p _).lawful
    · exact (sameReservable_setPort s p _).trans_lawful htake

theorem lawful_frameSent (hold : Bool) : ∃ t, exec (.frameSent p hold) s = .next t ∧ Lawful s t := by
  refine ⟨_, rfl, ?_⟩
  have hheld : SameReservable s (s.setHold p hold) := sameReservable_setPort s p _
  dsimp only
  split
  · exact hheld.lawful
  · exact (hheld.trans_lawful (lawful_endFrame _ p)).trans_keeps (Keeps.refl _).choose

-- The starts: every port's reservation is gone (R186)

theorem Keeps.of_none {s t : State} (h : ∀ p, (t.port p).reservation = none) : Keeps s t :=
  fun p _ hv => nomatch (h p).symm.trans hv

theorem Keeps.tellSuspect {s t : State} (h : Keeps s t) : Keeps s t.tellSuspect := by
  unfold State.tellSuspect
  split
  · exact h
  · exact h.notify

theorem Keeps.startRack {s t : State} (h : Keeps s t) {r : Rack} : Keeps s (t.startRack r) := h.setRack.kickRack

theorem keeps_quiet : Keeps s s.quiet := .of_none fun p => by cases p <;> rfl

theorem keeps_hallStart : Keeps s s.hallStart := by
  refine Keeps.startRack (Keeps.startRack (Keeps.feedStart (Keeps.tellSuspect (.of_none fun p => ?_))))
  cases p <;> rfl

end Sys2Proof.Machine
end

section
/-!
PROOFS. Every row of the table but the loss of the retained memory meets the law of the reservations (R190), and
RESERVE_DROP (R189).
-/
namespace Sys2Proof.Machine

variable (s : State)

/-- An event of the hall whose effect keeps the law meets it. -/
theorem lawful_hallEvent {effect : State → State} (he : ∀ t, Keeps s t → Keeps s (effect t)) :
    Lawful s (s.hallEvent effect) := ((Keeps.refl s).hallEvent (he s (.refl s))).lawful

/-- A dock transaction that ends, whose outcome keeps the law. -/
theorem lawful_dockEvent {r : Rack} {answers : Transaction → Bool} {lineFault : Bool}
    {own : Transaction → State → State} (hown : ∀ w t, Keeps s t → Keeps s (own w t)) :
    Lawful s (s.hallEvent fun s => s.dockEnd r answers lineFault own) :=
  lawful_hallEvent s fun _ h => h.dockEnd hown

/-- Every command and event but the loss of the retained memory meets the law. -/
theorem exec_lawful (c : Instr) (hc : c ≠ .retainedMemoryLoss) : ∃ t, exec c s = .next t ∧ Lawful s t := by
  cases c with
  | status p tag payload | read p tag payload | readReserve p tag payload | reserveDrop p tag payload
  | langDefine p tag payload | langRemove p tag payload | chanMap p tag payload | chanUnmap p tag payload
  | chanMove p tag payload | chanFloorfill p tag payload | boothConfig p tag payload | boothInput p tag payload
  | seatForceTake p tag payload | seatForceOff p tag payload | tariffWrite p tag payload | filterWrite p tag payload
  | clockSet p tag payload | dayClose p tag payload | receiverEnroll p tag payload | receiverRetire p tag payload
  | receiverService p tag payload | reportClear p tag payload | profileRead p tag payload
  | accountOpen p tag payload | accountFind p tag payload | accountClose p tag payload | issue p tag payload
  | settlementTake p tag payload | slotClear p tag payload | rackReset p tag payload | enrollSlot p tag payload
  | accountAdjust p tag payload | lossDeclare p tag payload =>
    exact ⟨_, rfl, lawful_client s p _ tag payload⟩
  | profileWrite p tag payload failure =>
    exact ⟨_, rfl, lawful_client { s with storeFailure := failure } p .profileWrite tag payload⟩
  | unknownCommand p tag code payload =>
    exact ⟨_, rfl, lawful_command s p tag code payload (lawful_perform_code s p payload code)⟩
  | frameReceived p hold bytes => exact lawful_frameReceived s p hold bytes
  | frameTimeout p =>
    refine ⟨_, rfl, Keeps.lawful ((Keeps.refl s).ite ?_)⟩
    exact (Keeps.refl s).setPort fun _ hv => hv
  | frameSent p hold => exact lawful_frameSent s p hold
  | holdReleased p => exact ⟨_, rfl, ((Keeps.refl s).setHold.ite (Keeps.refl s).setHold.choose).lawful⟩
  | boothSlot b => exact ⟨_, rfl, lawful_hallEvent s fun _ h => h.boothSlot⟩
  | advertise b a => exact ⟨_, rfl, lawful_hallEvent s fun _ h => h.inSlot fun _ h => h.takeAdvertise⟩
  | grantAck b taken => exact ⟨_, rfl, lawful_hallEvent s fun _ h => h.inSlot fun _ h => h.takeGrantAck⟩
  | statusReply b sequence events => exact ⟨_, rfl, lawful_hallEvent s fun _ h => h.inSlot fun _ h => h.statusReply⟩
  | slotUnanswered b => exact ⟨_, rfl, lawful_hallEvent s fun _ h => h.inSlot fun _ h => h.unanswered.ite h⟩
  | faultWaitEnd b => exact ⟨_, rfl, lawful_hallEvent s fun _ h => h.endFaultWait⟩
  | mic b n => exact ⟨_, rfl, lawful_hallEvent s fun _ h => h.micKey⟩
  | muteDown b n | muteUp b n => exact ⟨_, rfl, lawful_hallEvent s fun _ h => h.muteKey⟩
  | outputA b => exact ⟨_, rfl, lawful_hallEvent s fun _ h => h.outputAKey⟩
  | outputB b => exact ⟨_, rfl, lawful_hallEvent s fun _ h => h.outputBKey⟩
  | floorSel b => exact ⟨_, rfl, lawful_hallEvent s fun _ h => h.floorKey⟩
  | relaySel b source => exact ⟨_, rfl, lawful_hallEvent s fun _ h => h.relayKey⟩
  | previous b => exact ⟨_, rfl, lawful_hallEvent s fun _ h => h.previousKey⟩
  | flashTimerExpiry b lamp => exact ⟨_, rfl, lawful_hallEvent s fun _ h => h.setBooth⟩
  | secondEvent => exact ⟨_, rfl, lawful_hallEvent s fun _ h => h.tickSecond⟩
  | minuteTick => exact ⟨_, rfl, lawful_hallEvent s fun _ h => h.tickMinute⟩
  | redirectExpiry c => exact ⟨_, rfl, lawful_hallEvent s fun _ h => h.endRedirect⟩
  | handoverLapse b => exact ⟨_, rfl, lawful_hallEvent s fun _ h => h.lapse⟩
  | feedRepeat => exact ⟨_, rfl, lawful_hallEvent s fun _ h => h⟩
  | feedTransmissionEnd => exact ⟨_, rfl, lawful_hallEvent s fun _ h => h⟩
  | scanRound r => exact ⟨_, rfl, lawful_hallEvent s fun _ h => h.scanRound⟩
  | probeOutcome r n outcome =>
    exact ⟨_, rfl, lawful_dockEvent s fun _ _ h => h.probeAnswer.ite h.probeMiss⟩
  | identOutcome r n outcome =>
    refine ⟨_, rfl, lawful_dockEvent s fun _ _ h => ?_⟩
    cases outcome with
    | done ident => exact h.identDone
    | noAnswer | lineFault => exact h.departSlot
  | presetOutcome r outcome =>
    refine ⟨_, rfl, lawful_dockEvent s fun w t h => ?_⟩
    split
    · exact h.presetDone
    · exact h.departSlot
  | markHiredOutcome r outcome =>
    exact ⟨_, rfl, lawful_dockEvent s fun _ _ h => h.completeIssue.ite h.departSlot⟩
  | returnMarkOutcome r n outcome =>
    exact ⟨_, rfl, lawful_dockEvent s fun _ _ h => h.returnMarked.ite h.departSlot⟩
  | repairMarkOutcome r n outcome =>
    refine ⟨_, rfl, lawful_dockEvent s fun w t h => ?_⟩
    split
    · exact h.repairDone
    · exact h.departSlot
  | powerUp strap =>
    have hinstall : Keeps s s.enterInstall := .of_none fun p => by cases p <;> rfl
    exact ⟨_, rfl, (hinstall.ite (keeps_hallStart s)).lawful⟩
  | resetn => exact ⟨_, rfl, ((Keeps.refl s).ite (keeps_hallStart s)).lawful⟩
  | powerDown => exact ⟨_, rfl, (keeps_quiet s).lawful⟩
  | retainedMemoryLoss => exact absurd rfl hc

-- RESERVE_DROP (R189)

/-- RESERVE_DROP of a command that is taken clears its port's reservation and answers OK. -/
theorem exec_reserveDrop {s : State} {p : Port} (tag : Byte) (ht : s.Takes p) :
    exec (.reserveDrop p tag []) s = .next ((s.dropReservation p).after p tag 0x04 ⟨.ok, []⟩) :=
  client_next (name := .reserveDrop) (f := doReserveDrop p []) ht rfl rfl rfl

theorem reserveDrop_frame (p : Port) (tag : Byte) (r : Reply) :
    let t := (s.dropReservation p).after p tag 0x04 r
    t = { s with opsPort := t.opsPort, deskAPort := t.deskAPort, deskBPort := t.deskBPort, feed := t.feed } := by
  refine (after_frame (s.dropReservation p) p tag 0x04 r).trans ?_
  cases p <;> rfl

/-- The clearing of several records leaves a reservation that is on none of them. -/
theorem clearAll_eq (q : PortState) (records : List RecordName) :
    q.clearAll records = q.withReservation (q.reservation.filter fun v => v.record ∉ records) := by
  unfold PortState.clearAll
  induction records generalizing q with
  | nil =>
    cases hq : q.reservation <;> simp [PortState.withReservation, Option.filter, ← hq]
  | cons r rest ih =>
    rw [List.foldl_cons, ih, clearOn_eq, withReservation_withReservation]
    congr 1
    show Option.filter _ (Option.filter _ q.reservation) = _
    rw [Option.filter_filter]
    congr 1
    funext v
    simp

/-- Settles O35: RESERVE_DROP is its own rule and the reply, the law is `exec_lawful`, and clearing several records filters
the reservation. -/
theorem reserveDropDrops : Obligations.ReserveDropDrops := by
  unfold Obligations.ReserveDropDrops
  refine ⟨fun s p tag ht => ⟨_, exec_reserveDrop tag ht, ?_, fun x hx => ?_, reserveDrop_frame s p tag _⟩,
    fun c s t p v hc hexec hv => ?_, clearAll_eq⟩
  · rw [port_after, if_pos rfl, port_dropReservation, if_pos rfl]
  · rw [port_after, if_neg hx, port_dropReservation, if_neg hx]
  · obtain ⟨u, hu, hlaw⟩ := exec_lawful s c hc
    obtain rfl : u = t := Host.Outcome.next.inj (hu.symm.trans hexec)
    exact hlaw p v hv

end Sys2Proof.Machine
end

section
/-!
PROOFS. The clock's commands: CLOCK_SET (R200) and DAY_CLOSE (R201), and what a command refused before its own rule answers
(R177).
-/
namespace Sys2Proof.Machine

variable (s : State)

-- A command's step leaves the clock as the command's own rule left it

@[simp] theorem after_minute (p : Port) (tag code : Byte) (r : Reply) : (s.after p tag code r).minute = s.minute := by
  simp [State.after]

@[simp] theorem after_second (p : Port) (tag code : Byte) (r : Reply) : (s.after p tag code r).second = s.second := by
  simp [State.after]

@[simp] theorem after_suspect (p : Port) (tag code : Byte) (r : Reply) : (s.after p tag code r).suspect = s.suspect := by
  simp [State.after]

@[simp] theorem after_day (p : Port) (tag code : Byte) (r : Reply) : (s.after p tag code r).day = s.day := by
  simp [State.after]

-- The checks of permission and payload length (R177)

/-- Outside INSTALL a command that its port does not permit, or whose payload has not its length, is refused before its own
rule: the permission is checked first. -/
theorem answer_refused {name : CommandName} {p : Port} {payload : List Byte} {own : State → State × Reply}
    (hr : s.run = .hall) (h : name.permitted p = false ∨ name.lengthOk payload.length = false) :
    s.answer name p payload own = refuse s (if name.permitted p then .badArg else .denied) := by
  cases hp : name.permitted p with
  | false => simp [State.answer, hr, hp]
  | true =>
    have hl : name.lengthOk payload.length = false := h.resolve_left (by simp [hp])
    simp [State.answer, hr, hp, hl]

/-- A client command refused before its own rule is answered with the result alone and changes nothing. -/
theorem answers_refused {i : Instr} {p : Port} {tag : Byte} {payload : List Byte} {name : CommandName}
    {f : State → State × Reply}
    (hi : exec i s = .next (s.command p tag name.code payload fun s => s.answer name p payload f)) (ht : s.Takes p)
    (h : name.permitted p = false ∨ name.lengthOk payload.length = false) :
    Answers i s p tag name.code (.bare (if name.permitted p then .badArg else .denied)) := by
  refine ⟨s.after p tag name.code _, ?_, answered_after (Told.refl s), after_frame s p tag name.code _⟩
  rw [hi, command_taken s tag name.code payload _ ht, take_eq, answer_refused s ht.1 h]
  rfl

-- CLOCK_SET (R200)

/-- A number read from three bytes is written back as those bytes (R207). -/
theorem byte3_num3 (a b c : Byte) : byte3 (num3 a b c) = [a, b, c] := by
  have ha : BitVec.ofNat 8 (num3 a b c / 65536) = a := by unfold num3 num2; bv_omega
  have hb : BitVec.ofNat 8 (num3 a b c / 256) = b := by unfold num3 num2; bv_omega
  have hc : BitVec.ofNat 8 (num3 a b c) = c := by unfold num3 num2; bv_omega
  rw [byte3, byte2, ha, hb, hc]

/-- The hall clock set to a minute: the minute begins, and the clock is no longer suspect (R200). -/
def State.setClock (minute : Nat) : State := { s with minute := minute, second := 0, suspect := false }

theorem setClock_port (minute : Nat) (p : Port) : (s.setClock minute).port p = s.port p := by cases p <;> rfl

theorem exec_clockSet (p : Port) (tag : Byte) (payload : List Byte) :
    exec (.clockSet p tag payload) s =
      .next (s.command p tag CommandName.clockSet.code payload fun s =>
        s.answer .clockSet p payload (doClockSet p payload)) := rfl

/-- The rule of CLOCK_SET on a payload of three bytes: the reply carries the minute before and the bytes given. -/
theorem doClockSet_eq (p : Port) (a b c : Byte) :
    doClockSet p [a, b, c] s = (s.setClock (num3 a b c), ⟨.ok, byte3 s.minute ++ [a, b, c]⟩) := by
  simp only [doClockSet, State.setClock, byte3_num3]

theorem clockSet_sets {s : State} (tag a b c : Byte) (ht : s.Takes .ops) :
    exec (.clockSet .ops tag [a, b, c]) s =
      .next ((s.setClock (num3 a b c)).after .ops tag 0x1C ⟨.ok, byte3 s.minute ++ [a, b, c]⟩) :=
  (exec_clockSet s _ _ _).trans (client_next (name := .clockSet) ht rfl rfl (doClockSet_eq s .ops a b c))

theorem setClock_after_frame (minute : Nat) (p : Port) (tag code : Byte) (r : Reply) :
    let t := (s.setClock minute).after p tag code r
    t = { s with
      minute := t.minute, second := t.second, suspect := t.suspect, opsPort := t.opsPort,
      deskAPort := t.deskAPort, deskBPort := t.deskBPort, feed := t.feed } := by
  refine (after_frame (s.setClock minute) p tag code r).trans ?_
  simp only [after_minute, after_second, after_suspect]
  rfl

/-- CLOCK_SET is for the operations port alone, and its payload has three bytes. -/
theorem clockSet_unfit_iff (p : Port) (n : Nat) :
    (CommandName.clockSet.permitted p = false ∨ CommandName.clockSet.lengthOk n = false) ↔ p ≠ .ops ∨ n ≠ 3 := by
  simp [CommandName.permitted, CommandName.lengthOk]

theorem clockSet_refused {s : State} {p : Port} (tag : Byte) {payload : List Byte} (ht : s.Takes p)
    (h : p ≠ .ops ∨ payload.length ≠ 3) :
    Answers (.clockSet p tag payload) s p tag 0x1C ⟨if p = .ops then .badArg else .denied, []⟩ := by
  have hanswers := answers_refused s (exec_clockSet s p tag payload) ht ((clockSet_unfit_iff p payload.length).mpr h)
  simp only [CommandName.permitted, decide_eq_true_eq] at hanswers
  exact hanswers

-- DAY_CLOSE (R201)

/-- The hall day written. -/
def State.setDay (day : Nat) : State := { s with day := day }

theorem setDay_port (day : Nat) (p : Port) : (s.setDay day).port p = s.port p := by cases p <;> rfl

theorem exec_dayClose (p : Port) (tag : Byte) (payload : List Byte) :
    exec (.dayClose p tag payload) s =
      .next (s.command p tag CommandName.dayClose.code payload fun s =>
        s.answer .dayClose p payload (doDayClose p payload)) := rfl

theorem dayClose_sets {s : State} (tag : Byte) (ht : s.Takes .ops) :
    exec (.dayClose .ops tag []) s =
      .next ((s.setDay (satAdd Config.topDay s.day 1)).after .ops tag 0x1D
        ⟨.ok, byte2 (satAdd Config.topDay s.day 1)⟩) :=
  (exec_dayClose s _ _ _).trans (client_next (name := .dayClose) (f := doDayClose .ops []) ht rfl rfl rfl)

theorem setDay_after_frame (day : Nat) (p : Port) (tag code : Byte) (r : Reply) :
    let t := (s.setDay day).after p tag code r
    t = { s with
      day := t.day, opsPort := t.opsPort, deskAPort := t.deskAPort, deskBPort := t.deskBPort, feed := t.feed } := by
  refine (after_frame (s.setDay day) p tag code r).trans ?_
  simp only [after_day]
  rfl

/-- A day within its field increases by 1 until it stands at the top of the field. -/
theorem satAdd_topDay {day : Nat} (h : day ≤ 65535) :
    satAdd Config.topDay day 1 = if day = 65535 then 65535 else day + 1 := by
  unfold satAdd Config.topDay
  split <;> omega

/-- Settles O29: each command is its own rule on the clock and the reply; a CLOCK_SET that is not for the operations port or
not of three bytes is refused before its rule. -/
theorem clockCommandsWrite : Obligations.ClockCommandsWrite := by
  unfold Obligations.ClockCommandsWrite
  refine ⟨fun s tag a b c ht => ?_, fun s p tag payload ht h => clockSet_refused tag ht h, fun s tag ht hday => ?_⟩
  · refine ⟨_, clockSet_sets tag a b c ht, ?_, after_second .., after_suspect ..,
      answered_after (.of_ports (setClock_port s _)), setClock_after_frame s _ _ _ _ _⟩
    rw [after_minute]
    exact (Nat.add_assoc _ _ _).symm
  · refine ⟨_, dayClose_sets tag ht, (after_day ..).trans (satAdd_topDay hday), ?_, setDay_after_frame s _ _ _ _ _⟩
    rw [after_day]
    exact answered_after (.of_ports (setDay_port s _))

end Sys2Proof.Machine
end

section
/-!
PROOFS. The invariants of a step: the relation `Sized`, that a step keeps the bounds of `State.Bounded` but for the feed
link, and that every write of a record, a port and a rack engine keeps them.
-/
namespace Sys2Proof.Machine

-- A port within its limits

/-- A port's notice queue and receive buffer are within their limits (R175, R183). -/
def PortState.Within (q : PortState) : Prop :=
  q.notices.length ≤ Config.noticeLimit ∧ q.buffered ≤ Config.bufferBytes

theorem PortState.Within.start (hold : Bool) : (PortState.start hold).Within :=
  ⟨Nat.zero_le _, Nat.zero_le _⟩

theorem PortState.Within.clearOn {q : PortState} (h : q.Within) (r : RecordName) : (q.clearOn r).Within := by
  rw [clearOn_eq]
  exact h

theorem PortState.Within.sendNotice {q : PortState} (h : q.Within) : q.sendNotice.Within := by
  unfold PortState.sendNotice
  split
  · exact h
  next hn =>
    have hlen := h.1
    rw [hn] at hlen
    exact ⟨Nat.le_of_succ_le hlen, h.2⟩

theorem PortState.Within.chooseFrame {q : PortState} (h : q.Within) : q.chooseFrame.Within := by
  unfold PortState.chooseFrame
  repeat' split
  any_goals exact h
  any_goals exact h.sendNotice

/-- The queue never holds more than its 16 notices: the one beyond discards the oldest (R184). -/
theorem PortState.Within.post {q : PortState} (h : q.Within) (n : Notice) : (q.post n).Within := by
  refine PortState.Within.chooseFrame ?_
  unfold PortState.enqueue
  split
  next hlt => exact ⟨by simpa using hlt, h.2⟩
  next =>
    have hlen : q.notices.length ≤ 16 := h.1
    refine ⟨?_, h.2⟩
    simp only [List.length_append, List.length_tail, List.length_singleton, Config.noticeLimit]
    omega

theorem PortState.Within.hand {q : PortState} (h : q.Within) (tag code : Byte) (r : Reply) :
    (q.hand tag code r).Within :=
  PortState.Within.chooseFrame (q := { q with inHand := some ⟨tag, code, r, q.notices.length, false⟩ }) h

theorem PortState.Within.keep {q : PortState} (h : q.Within) (code tag : Byte) (payload : List Byte) :
    (q.keep code tag payload).Within := by
  unfold PortState.keep
  dsimp only
  split
  next hroom =>
    refine ⟨h.1, ?_⟩
    simp only [PortState.buffered, List.map_append, List.sum_append, List.map_cons, List.map_nil, List.sum_cons,
      List.sum_nil] at hroom ⊢
    omega
  next => exact h

/-- A byte is stored only while the receive buffer has room for it (R175). -/
theorem PortState.Within.storeByte {q : PortState} (h : q.Within) (remaining : Nat) {stored : List Byte}
    (spoilt : Bool) (b : Byte) (hstored : (q.received.map List.length).sum + stored.length ≤ q.buffered) :
    (q.storeByte remaining stored spoilt b).Within := by
  have hbuf : q.buffered ≤ 256 := h.2
  unfold PortState.storeByte
  split
  next hlt =>
    have hlt' : q.buffered < 256 := hlt
    refine ⟨h.1, ?_⟩
    show (q.received.map List.length).sum + (stored ++ [b]).length ≤ 256
    simp only [List.length_append, List.length_singleton]
    omega
  next => exact ⟨h.1, Nat.le_trans hstored hbuf⟩

theorem PortState.Within.endFrame {q : PortState} (h : q.Within) : q.endFrame.Within := by
  unfold PortState.endFrame
  split
  next stored spoilt hframer =>
    have hbuf : q.buffered ≤ 256 := h.2
    have hsum : q.buffered = (q.received.map List.length).sum + stored.length := by simp [PortState.buffered, hframer]
    split
    · refine ⟨h.1, ?_⟩
      simp only [PortState.buffered, List.map_append, List.sum_append, List.map_cons, List.map_nil, List.sum_cons,
        List.sum_nil, Config.bufferBytes]
      omega
    · refine ⟨h.1, ?_⟩
      simp only [PortState.buffered, Config.bufferBytes]
      omega
  all_goals exact h

theorem PortState.Within.takeByte {q : PortState} (h : q.Within) (b : LineByte) : (q.takeByte b).Within := by
  have hreceived : (q.received.map List.length).sum ≤ 256 := Nat.le_trans (Nat.le_add_right _ _) h.2
  unfold PortState.takeByte
  split
  next =>
    split
    · exact ⟨h.1, hreceived⟩
    · exact h
  next =>
    split
    · exact ⟨h.1, hreceived⟩
    · exact h.storeByte _ _ _ (Nat.le_add_right _ _)
  next hframer => exact (h.storeByte _ _ _ (by simp [PortState.buffered, hframer])).endFrame

-- Sets as rising lists

theorem setAdd_rising (k : Nat) {l : List Nat} (h : l.Pairwise (· < ·)) : (setAdd k l).Pairwise (· < ·) := by
  induction l with
  | nil => simp [setAdd]
  | cons j rest ih =>
    obtain ⟨hlow, hrest⟩ := List.pairwise_cons.1 h
    simp only [setAdd]
    split
    next hkj =>
      refine List.pairwise_cons.2 ⟨fun i hi => ?_, h⟩
      rcases List.mem_cons.1 hi with rfl | hi
      · exact hkj
      · exact Nat.lt_trans hkj (hlow i hi)
    split
    · exact h
    next hkj hne =>
      refine List.pairwise_cons.2 ⟨fun i hi => ?_, ih hrest⟩
      rcases (mem_setAdd k i rest).1 hi with rfl | hi
      · omega
      · exact hlow i hi

theorem setDel_rising (k : Nat) {l : List Nat} (h : l.Pairwise (· < ·)) : (setDel k l).Pairwise (· < ·) :=
  h.sublist List.filter_sublist

-- The tables after a write

variable (s : State)

theorem languages_setLanguage (i : Nat) (v : Language) :
    (s.setLanguage i v).languages = tabSet .undefined s.languages i v := by
  unfold State.setLanguage; dsimp only; split <;> rfl

theorem channels_setChannel (i : Nat) (v : Channel) :
    (s.setChannel i v).channels = tabSet .initial s.channels i v := by
  unfold State.setChannel; dsimp only; split <;> rfl

theorem booths_setBooth (i : Nat) (v : Booth) : (s.setBooth i v).booths = tabSet .initial s.booths i v := by
  unfold State.setBooth; dsimp only; split <;> rfl

theorem accounts_setAccount (i : Nat) (v : Account) :
    (s.setAccount i v).accounts = tabSet .initial s.accounts i v := by
  unfold State.setAccount; dsimp only; split <;> rfl

-- What the writes of the records leave

/-- The state but for the languages, channels, booths, receivers, accounts and ports. -/
def State.unwritten : State :=
  { s with
    languages := [], channels := [], booths := [], receivers := [], accounts := [],
    opsPort := .start false, deskAPort := .start false, deskBPort := .start false }

section
variable {s t : State} (h : t.unwritten = s.unwritten)
include h

theorem pending_of_unwritten : t.pending = s.pending := (congrArg State.pending h :)
theorem marker_of_unwritten : t.marker = s.marker := (congrArg State.marker h :)
theorem tariffs_of_unwritten : t.tariffs = s.tariffs := (congrArg State.tariffs h :)
theorem filters_of_unwritten : t.filters = s.filters := (congrArg State.filters h :)
theorem bufferA_of_unwritten : t.bufferA = s.bufferA := (congrArg State.bufferA h :)
theorem bufferB_of_unwritten : t.bufferB = s.bufferB := (congrArg State.bufferB h :)
theorem reports_of_unwritten : t.reports = s.reports := (congrArg State.reports h :)
theorem minute_of_unwritten : t.minute = s.minute := (congrArg State.minute h :)
theorem day_of_unwritten : t.day = s.day := (congrArg State.day h :)
theorem second_of_unwritten : t.second = s.second := (congrArg State.second h :)
theorem rackA_of_unwritten : t.rackA = s.rackA := (congrArg State.rackA h :)
theorem rackB_of_unwritten : t.rackB = s.rackB := (congrArg State.rackB h :)
theorem profile_of_unwritten : t.profile = s.profile := (congrArg State.profile h :)
theorem clamped_of_unwritten : t.clamped = s.clamped := (congrArg State.clamped h :)
theorem store_of_unwritten : t.store = s.store := (congrArg State.store h :)

end

theorem unwritten_setLanguage (i : Nat) (v : Language) : (s.setLanguage i v).unwritten = s.unwritten := by
  unfold State.setLanguage; dsimp only; split <;> rfl

theorem unwritten_setChannel (i : Nat) (v : Channel) : (s.setChannel i v).unwritten = s.unwritten := by
  unfold State.setChannel; dsimp only; split <;> rfl

theorem unwritten_setBooth (i : Nat) (v : Booth) : (s.setBooth i v).unwritten = s.unwritten := by
  unfold State.setBooth; dsimp only; split <;> rfl

theorem unwritten_setAccount (i : Nat) (v : Account) : (s.setAccount i v).unwritten = s.unwritten := by
  unfold State.setAccount; dsimp only; split <;> rfl

-- The relation

/-- A step keeps the queue of waiting commands and every bound of `State.Bounded` but that of the feed link, which its
work at the end of a row brings up to the tables. -/
structure Sized (s t : State) : Prop where
  pending : t.pending = s.pending
  ports   : s.PortsBounded → t.PortsBounded
  queues  : s.QueuesBounded → t.QueuesBounded
  clock   : s.ClockInRange → t.ClockInRange
  tables  : s.TablesCanonical → t.TablesCanonical
  profile : s.ProfileInRange → t.ProfileInRange
  takers  : s.TakersRise → t.TakersRise

theorem Sized.refl : Sized s s := ⟨rfl, id, id, id, id, id, id⟩

theorem Sized.trans {s t u : State} (h : Sized s t) (h' : Sized t u) : Sized s u :=
  ⟨h'.pending.trans h.pending, h'.ports ∘ h.ports, h'.queues ∘ h.queues, h'.clock ∘ h.clock, h'.tables ∘ h.tables,
    h'.profile ∘ h.profile, h'.takers ∘ h.takers⟩

/-- A write of records and ports alone: what it leaves is within its bounds as it was. -/
theorem Sized.of_unwritten {s t : State} (h : t.unwritten = s.unwritten)
    (hports : ∀ p, (s.port p).Within → (t.port p).Within) (htables : s.TablesCanonical → t.TablesCanonical)
    (htakers : s.TakersRise → t.TakersRise) : Sized s t where
  pending := pending_of_unwritten h
  ports hs p := hports p (hs p)
  queues hs r := by
    cases r with
    | a => exact (congrArg (fun e => e.queue.length ≤ Config.queueLimit) (rackA_of_unwritten h)).mpr (hs .a)
    | b => exact (congrArg (fun e => e.queue.length ≤ Config.queueLimit) (rackB_of_unwritten h)).mpr (hs .b)
  clock hs := by
    unfold State.ClockInRange
    rwa [second_of_unwritten h, marker_of_unwritten h, minute_of_unwritten h, day_of_unwritten h]
  tables := htables
  profile hs := by
    unfold State.ProfileInRange
    rwa [profile_of_unwritten h]
  takers := htakers

section
variable {s t : State} (h : Sized s t)
include h

theorem Sized.foldl {α : Type} {f : State → α → State} (l : List α) (hf : ∀ t x, Sized s t → Sized s (f t x)) :
    Sized s (l.foldl f t) := by
  induction l generalizing t with
  | nil => exact h
  | cons x rest ih => exact ih (hf t x h)

theorem Sized.setLanguage {i : Nat} {v : Language} : Sized s (t.setLanguage i v) := by
  refine h.trans (.of_unwritten (unwritten_setLanguage t i v) (fun p hp => ?_) (fun ht hm => ?_) fun hr b => ?_)
  · rw [port_setLanguage]
    split
    · exact hp
    · exact hp.clearOn _
  · obtain ⟨hl, hc, hb, hr, ha, hk, hf, hg⟩ := ht (by simpa using hm)
    simp [languages_setLanguage, tabWf_tabSet, *]
  · rw [setLanguage_booth]
    exact hr b

theorem Sized.setChannel {i : Nat} {v : Channel} : Sized s (t.setChannel i v) := by
  refine h.trans (.of_unwritten (unwritten_setChannel t i v) (fun p hp => ?_) (fun ht hm => ?_) fun hr b => ?_)
  · rw [port_setChannel]
    split
    · exact hp
    · exact hp.clearOn _
  · obtain ⟨hl, hc, hb, hr, ha, hk, hf, hg⟩ := ht (by simpa using hm)
    simp [channels_setChannel, tabWf_tabSet, *]
  · rw [setChannel_booth]
    exact hr b

/-- A booth record written, with a taker set that rises and does not hold the booth itself. -/
theorem Sized.writeBooth {b : Nat} {v : Booth}
    (hv : t.TakersRise → v.takers.Pairwise (· < ·) ∧ b ∉ v.takers) : Sized s (t.setBooth b v) := by
  refine h.trans (.of_unwritten (unwritten_setBooth t b v) (fun p hp => ?_) (fun ht hm => ?_) fun hr x => ?_)
  · rw [port_setBooth]
    split
    · exact hp
    · exact hp.clearOn _
  · obtain ⟨hl, hc, hb, hr, ha, hk, hf, hg⟩ := ht (by simpa using hm)
    simp [booths_setBooth, tabWf_tabSet, *]
  · rw [booth_setBooth]
    split
    next hx => exact hx ▸ hv hr
    next => exact hr x

theorem Sized.setAccount {i : Nat} {v : Account} : Sized s (t.setAccount i v) := by
  refine h.trans (.of_unwritten (unwritten_setAccount t i v) (fun p hp => ?_) (fun ht hm => ?_) fun hr b => ?_)
  · rw [port_setAccount]
    split
    · exact hp
    · exact hp.clearOn _
  · obtain ⟨hl, hc, hb, hr, ha, hk, hf, hg⟩ := ht (by simpa using hm)
    simp [accounts_setAccount, tabWf_tabSet, *]
  · rw [setAccount_booth]
    exact hr b

theorem Sized.setTariff {i : Nat} {v : Tariff} : Sized s (t.setTariff i v) := by
  refine h.trans ⟨rfl, fun hp p => ?_, fun hq r => ?_, id, fun ht hm => ?_, id, id⟩
  · rw [port_setTariff]
    exact PortState.Within.clearOn (hp p) _
  · cases r
    exacts [hq .a, hq .b]
  · obtain ⟨hl, hc, hb, hr, ha, hk, hf, hg⟩ := ht (by simpa using hm)
    exact ⟨hl, hc, hb, hr, ha, tabWf_tabSet _ _ _ _ hk, hf, hg⟩

theorem Sized.setReceiver {i : Nat} {v : Option Receiver} : Sized s (t.setReceiver i v) := by
  refine h.trans ⟨rfl, id, id, id, fun ht hm => ?_, id, id⟩
  obtain ⟨hl, hc, hb, hr, ha, hk, hf, hg⟩ := ht hm
  exact ⟨hl, hc, hb, tabWf_tabSet _ _ _ _ hr, ha, hk, hf, hg⟩

theorem Sized.setFilter {i : Nat} {v : Filter} : Sized s (t.setFilter i v) := by
  refine h.trans ⟨rfl, id, id, id, fun ht hm => ?_, id, id⟩
  obtain ⟨hl, hc, hb, hr, ha, hk, hf, hg⟩ := ht hm
  exact ⟨hl, hc, hb, hr, ha, hk, tabWf_tabSet _ _ _ _ hf, hg⟩

theorem Sized.setReport {i : Nat} {v : ClassReport} : Sized s (t.setReport i v) := by
  refine h.trans ⟨rfl, id, id, id, fun ht hm => ?_, id, id⟩
  obtain ⟨hl, hc, hb, hr, ha, hk, hf, hg⟩ := ht hm
  exact ⟨hl, hc, hb, hr, ha, hk, hf, tabWf_tabSet _ _ _ _ hg⟩

theorem Sized.setPort {p : Port} {q : PortState} (hq : (t.port p).Within → q.Within) : Sized s (t.setPort p q) := by
  have hports : t.PortsBounded → (t.setPort p q).PortsBounded := by
    intro hp x
    rw [port_setPort]
    split
    · exact hq (hp p)
    · exact hp x
  cases p <;> exact h.trans ⟨rfl, hports, id, id, id, id, id⟩

theorem Sized.notify {p : Port} {n : Notice} : Sized s (t.notify p n) := h.setPort fun hp => hp.post n

theorem Sized.setRack {r : Rack} {e : RackEngine}
    (hq : (t.rack r).queue.length ≤ Config.queueLimit → e.queue.length ≤ Config.queueLimit) :
    Sized s (t.setRack r e) := by
  have hqueues : t.QueuesBounded → (t.setRack r e).QueuesBounded := by
    intro ht x
    rw [rack_setRack]
    split
    · exact hq (ht r)
    · exact ht x
  cases r <;> exact h.trans ⟨rfl, id, hqueues, id, id, id, id⟩

theorem Sized.setBuffer {r : Rack} {v : Option Settlement} : Sized s (t.setBuffer r v) := by
  cases r <;> exact h.trans ⟨rfl, id, id, id, id, id, id⟩

/-- The feed link's work writes the feed link alone. -/
theorem Sized.feedWork : Sized s t.feedWork := by
  rw [feedWork_frame]
  exact h.trans ⟨rfl, id, id, id, id, id, id⟩

end

end Sys2Proof.Machine
end

section
/-!
PROOFS. The agreement of the language table with the channel map and the configurations (R11): which writes keep it, and
what a write of an owner field does (R9, R11).
-/
namespace Sys2Proof.Machine

variable (s : State)

-- A write of an owner field

/-- The language's channel follows its owner: its state is the bound state of the owner (R11). -/
theorem channel_followOwner (l c : Nat) :
    (s.followOwner l).channel c =
      if (s.language l).channel = some c then { s.channel c with state := boundState l (s.language l).owner }
      else s.channel c := by
  unfold State.followOwner
  split
  next hnone => simp [hnone]
  next d hd =>
    dsimp only
    by_cases hc : c = d
    · subst hc
      split
      next heq => simp [← heq]
      next => simp
    · have hne : ¬ d = c := fun e => hc e.symm
      split <;> simp [hd, hne, channel_setChannel, hc]

theorem channel_setOwner (l : Nat) (o : Option Nat) (c : Nat) :
    (s.setOwner l o).channel c = s.ownerChannel l o c := by
  unfold State.setOwner State.ownerChannel
  dsimp only
  split
  next heq => simp [heq]
  next hne => simp [channel_followOwner, hne]

@[simp] theorem setOwner_booth (l : Nat) (o : Option Nat) (b : Nat) : (s.setOwner l o).booth b = s.booth b := by
  rw [setOwner_frame]; rfl

@[simp] theorem setOwner_marker (l : Nat) (o : Option Nat) : (s.setOwner l o).marker = s.marker := by
  rw [setOwner_frame]

@[simp] theorem release_booth (b : Nat) (x : Option Nat) (y : Nat) : (s.release b x).booth y = s.booth y := by
  unfold State.release
  split
  · rfl
  · split
    · exact setOwner_booth s _ _ _
    · rfl

@[simp] theorem release_marker (b : Nat) (x : Option Nat) : (s.release b x).marker = s.marker := by
  unfold State.release
  split
  · rfl
  · split
    · exact setOwner_marker s _ _
    · rfl

-- What keeps the agreement

theorem agree_language {s : State} (h : s.LanguagesAgree) (hm : s.marker = true) (l : Nat)
    (hl : (s.language l).defined = false) : s.language l = .undefined := by
  have := (h hm).2.1 l
  rwa [if_neg (by simp [hl])] at this

theorem agree_defined_le {s : State} (h : s.LanguagesAgree) (hm : s.marker = true) {l : Nat}
    (hl : (s.language l).defined = true) : l ≤ 31 := by
  have := (h hm).2.1 l
  rwa [if_pos hl] at this

theorem agree_names {s : State} (h : s.LanguagesAgree) (hm : s.marker = true) {b l : Nat}
    (hb : (s.booth b).config.names l) : (s.language l).defined = true := ((h hm).2.2 b l hb).2.2

/-- A language with a channel, or one a channel's state names, is defined. -/
theorem agree_channel_defined {s : State} (h : s.LanguagesAgree) (hm : s.marker = true) {l c : Nat}
    (hl : (s.language l).channel = some c) : (s.language l).defined = true := by
  by_contra hd
  rw [agree_language h hm l (by simpa using hd)] at hl
  exact nomatch hl

theorem agree_of_language {s : State} (h : s.LanguagesAgree) (hm : s.marker = true) {l c : Nat}
    (hc : (s.channel c).state.language = some l) :
    (s.language l).channel = some c ∧ 1 ≤ c ∧ c ≤ 24 ∧ (s.channel c).state = boundState l (s.language l).owner := by
  have hl := (h hm).1.2 c l hc
  exact ⟨hl, (h hm).1.1 l c hl⟩

/-- The configurations and all of the languages but labels and listeners stay, and a channel's state stays or is unbound
before and after. -/
theorem agree_of_same {s t : State} (h : s.LanguagesAgree) (hm : t.marker = true → s.marker = true)
    (hl : ∀ l, ((t.language l).channel = (s.language l).channel ∧ (t.language l).owner = (s.language l).owner ∧
      (t.language l).defined = (s.language l).defined) ∧
      ((s.language l).defined = false → s.language l = .undefined → t.language l = .undefined))
    (hc : ∀ c, (t.channel c).state = (s.channel c).state ∨
      ((t.channel c).state.language = none ∧ (s.channel c).state.language = none))
    (hb : ∀ b, (t.booth b).config = (s.booth b).config) : t.LanguagesAgree := by
  intro htm
  have hsm := hm htm
  obtain ⟨⟨hlc, hcl⟩, hdef, hnames⟩ := h hsm
  refine ⟨⟨fun l c htl => ?_, fun c l htc => ?_⟩, fun l => ?_, fun b l hbl => ?_⟩
  · obtain ⟨⟨hch, hown, -⟩, -⟩ := hl l
    obtain ⟨h1, h24, hs⟩ := hlc l c (hch ▸ htl)
    refine ⟨h1, h24, ?_⟩
    rcases hc c with hsame | ⟨-, hun⟩
    · rw [hsame, hs, hown]
    · rw [hs, boundState_language] at hun
      exact nomatch hun
  · rcases hc c with hsame | ⟨hun, -⟩
    · rw [(hl l).1.1]
      exact hcl c l (hsame ▸ htc)
    · rw [hun] at htc
      exact nomatch htc
  · have hd := hdef l
    obtain ⟨⟨-, -, hsame⟩, hund⟩ := hl l
    rw [hsame]
    split
    next ht => rwa [if_pos ht] at hd
    next hf =>
      rw [if_neg hf] at hd
      exact hund (by simpa using hf) hd
  · rw [hb b] at hbl
    obtain ⟨h1, h16, hd⟩ := hnames b l hbl
    exact ⟨h1, h16, (hl l).1.2.2.trans hd⟩

/-- A language as it was is one of which `agree_of_same` asks nothing more. -/
theorem language_kept {v w : Language} (h : w = v) :
    (w.channel = v.channel ∧ w.owner = v.owner ∧ w.defined = v.defined) ∧
      (v.defined = false → v = .undefined → w = .undefined) := by
  subst h
  exact ⟨⟨rfl, rfl, rfl⟩, fun _ => id⟩

/-- A step that leaves the languages, the channels and the configurations. -/
theorem agree_of_tables {s t : State} (h : s.LanguagesAgree) (hm : t.marker = s.marker)
    (hl : ∀ l, t.language l = s.language l) (hc : ∀ c, t.channel c = s.channel c)
    (hb : ∀ b, t.booth b = s.booth b) : t.LanguagesAgree :=
  agree_of_same h (fun htm => hm ▸ htm) (fun l => language_kept (hl l)) (fun c => .inl (by rw [hc]))
    fun b => by rw [hb]

/-- A write of an owner field keeps the agreement, since the language's channel follows (R11). -/
theorem agree_setOwner {s : State} {l : Nat} {o : Option Nat} (h : s.LanguagesAgree)
    (hd : s.marker = true → o ≠ none → (s.language l).defined = true) : (s.setOwner l o).LanguagesAgree := by
  intro htm
  have hm : s.marker = true := by simpa using htm
  have hdisjoint : ∀ {k c}, k ≠ l → (s.language k).channel = some c → (s.language l).channel ≠ some c := by
    intro k c hk hkc hlc
    have hk' := ((h hm).1.1 k c hkc).2.2
    have hl' := ((h hm).1.1 l c hlc).2.2
    have := congrArg ChannelState.language (hk'.symm.trans hl')
    simp at this
    exact hk this
  have hstate : ∀ c, ((s.setOwner l o).channel c).state =
      if (s.language l).channel = some c then boundState l o else (s.channel c).state := by
    intro c
    rw [channel_setOwner, State.ownerChannel]
    by_cases hown : (s.language l).owner = o
    · split
      · next hh => exact absurd hown hh.1
      · split
        next hlc => rw [← hown, ((h hm).1.1 l c hlc).2.2]
        next => rfl
    · simp only [ne_eq, hown, not_false_eq_true, true_and]
      split <;> rfl
  refine ⟨⟨fun k c hkc => ?_, fun c k hck => ?_⟩, fun k => ?_, fun b k hbk => ?_⟩
  · rw [language_setOwner] at hkc ⊢
    rw [hstate]
    by_cases hk : k = l
    · subst hk
      simp only [if_true] at hkc ⊢
      obtain ⟨h1, h24, -⟩ := (h hm).1.1 k c hkc
      exact ⟨h1, h24, by rw [if_pos hkc]⟩
    · rw [if_neg hk] at hkc ⊢
      obtain ⟨h1, h24, hs⟩ := (h hm).1.1 k c hkc
      exact ⟨h1, h24, by rw [if_neg (hdisjoint hk hkc), hs]⟩
  · rw [hstate] at hck
    rw [language_setOwner]
    split at hck
    next hlc =>
      simp only [boundState_language, Option.some.injEq] at hck
      rw [if_pos hck.symm]
      exact hlc
    next =>
      have := (h hm).1.2 c k hck
      split
      next hk => exact hk ▸ this
      next => exact this
  · rw [language_setOwner]
    have hk := (h hm).2.1 k
    split
    next hkl =>
      subst hkl
      dsimp only
      split
      next hdef => rwa [if_pos hdef] at hk
      next hdef =>
        rw [if_neg hdef] at hk
        have ho : o = none := by
          by_contra ho
          exact hdef (hd hm ho)
        rw [hk, ho]; rfl
    next => exact hk
  · rw [setOwner_booth] at hbk
    obtain ⟨h1, h16, hdef⟩ := (h hm).2.2 b k hbk
    refine ⟨h1, h16, ?_⟩
    rw [language_setOwner]
    split
    next hkl => exact hkl ▸ hdef
    next => exact hdef

/-- Language `l` moves to channel `new`, or loses its channel: the channel it goes to was unbound and takes its bound
state, the one it leaves is unbound (R14 to R16). -/
theorem agree_rebind {s t : State} {l : Nat} {new : Option Nat} (h : s.LanguagesAgree)
    (hm : t.marker = s.marker) (hdef : (s.language l).defined = true)
    (hl : ∀ k, t.language k = if k = l then { s.language l with channel := new } else s.language k)
    (hnew : ∀ x, new = some x → 1 ≤ x ∧ x ≤ 24 ∧ (t.channel x).state = boundState l (s.language l).owner ∧
      (s.channel x).state.language = none)
    (hrest : ∀ x, new ≠ some x →
      ((s.channel x).state.language = some l → (t.channel x).state.language = none) ∧
      ((s.channel x).state.language ≠ some l → (t.channel x).state = (s.channel x).state))
    (hb : ∀ b, (t.booth b).config = (s.booth b).config) : t.LanguagesAgree := by
  intro htm
  have hsm : s.marker = true := hm ▸ htm
  obtain ⟨⟨hlc, hcl⟩, hdefs, hnames⟩ := h hsm
  refine ⟨⟨fun k c hkc => ?_, fun c k hck => ?_⟩, fun k => ?_, fun b k hbk => ?_⟩
  · rw [hl] at hkc ⊢
    by_cases hk : k = l
    · subst hk
      simp only [if_true] at hkc ⊢
      obtain ⟨h1, h24, hs, -⟩ := hnew c hkc
      exact ⟨h1, h24, hs⟩
    · rw [if_neg hk] at hkc ⊢
      obtain ⟨h1, h24, hs⟩ := hlc k c hkc
      have hkl : (s.channel c).state.language = some k := by rw [hs, boundState_language]
      refine ⟨h1, h24, ?_⟩
      by_cases hc : new = some c
      · obtain ⟨-, -, -, hun⟩ := hnew c hc
        rw [hkl] at hun
        exact nomatch hun
      · rw [(hrest c hc).2 (by simpa [hkl] using hk), hs]
  · by_cases hc : new = some c
    · obtain ⟨-, -, hs, -⟩ := hnew c hc
      rw [hs, boundState_language] at hck
      obtain rfl := Option.some.inj hck
      rw [hl, if_pos rfl]
      exact hc
    · obtain ⟨hleft, hsame⟩ := hrest c hc
      by_cases hsl : (s.channel c).state.language = some l
      · rw [hleft hsl] at hck
        exact nomatch hck
      · rw [hsame hsl] at hck
        have hne : k ≠ l := fun e => hsl (e ▸ hck)
        rw [hl, if_neg hne]
        exact hcl c k hck
  · have hk := hdefs k
    rw [hl]
    by_cases hkl : k = l
    · subst hkl
      simp only [if_true]
      rw [if_pos hdef] at hk ⊢
      exact hk
    · simpa only [if_neg hkl] using hk
  · rw [hb] at hbk
    obtain ⟨h1, h16, hd⟩ := hnames b k hbk
    refine ⟨h1, h16, ?_⟩
    rw [hl]
    split
    next hkl => exact hdef
    next => exact hd

/-- A language without a channel is written anew without one: it is defined and one of the 32, or blank and named by no
configuration (R2, R3). -/
theorem agree_setLanguage {s : State} {i : Nat} {v : Language} (h : s.LanguagesAgree)
    (hs : (s.language i).channel = none) (hv : v.channel = none)
    (hdef : if v.defined then i ≤ 31 else v = .undefined ∧ ∀ b, ¬ (s.booth b).config.names i) :
    (s.setLanguage i v).LanguagesAgree := by
  intro htm
  obtain ⟨⟨hlc, hcl⟩, hdefs, hnames⟩ := h (by simpa using htm)
  refine ⟨⟨fun k c hkc => ?_, fun c k hck => ?_⟩, fun k => ?_, fun b k hbk => ?_⟩
  · rw [language_setLanguage] at hkc ⊢
    split at hkc
    next => rw [hv] at hkc; exact nomatch hkc
    next hk =>
      rw [if_neg hk, setLanguage_channel]
      exact hlc k c hkc
  · rw [setLanguage_channel] at hck
    have hkc := hcl c k hck
    rw [language_setLanguage]
    split
    next hk =>
      rw [hk, hs] at hkc
      exact nomatch hkc
    next => exact hkc
  · rw [language_setLanguage]
    split
    next hk =>
      subst hk
      split at hdef
      next hd => rwa [if_pos hd]
      next hd =>
        rw [if_neg hd]
        exact hdef.1
    next => exact hdefs k
  · rw [setLanguage_booth] at hbk
    obtain ⟨h1, h16, hd⟩ := hnames b k hbk
    refine ⟨h1, h16, ?_⟩
    rw [language_setLanguage]
    split
    next hk =>
      subst hk
      by_contra hnd
      rw [if_neg hnd] at hdef
      exact hdef.2 b hbk
    next => exact hd

/-- A configuration of one of the 16 booths that names defined languages alone is written (R29, R30). -/
theorem agree_setConfig {s : State} {b : Nat} {v : Booth} (h : s.LanguagesAgree) (h1 : 1 ≤ b) (h16 : b ≤ 16)
    (hv : ∀ l, v.config.names l → (s.language l).defined = true) : (s.setBooth b v).LanguagesAgree := by
  intro htm
  obtain ⟨⟨hlc, hcl⟩, hdefs, hnames⟩ := h (by simpa using htm)
  refine ⟨⟨fun k c hkc => ?_, fun c k hck => ?_⟩, fun k => ?_, fun x k hbk => ?_⟩
  · simp only [setBooth_language, setBooth_channel] at hkc ⊢
    exact hlc k c hkc
  · simp only [setBooth_language, setBooth_channel] at hck ⊢
    exact hcl c k hck
  · simp only [setBooth_language]
    exact hdefs k
  · rw [booth_setBooth] at hbk
    rw [setBooth_language]
    split at hbk
    next hx => exact ⟨hx ▸ h1, hx ▸ h16, hv k hbk⟩
    next => exact hnames x k hbk

theorem names_of_outputLanguage {v : Booth} {o : Output} {l : Nat} (h : v.outputLanguage o = some l) :
    v.config.names l := by
  cases o with
  | a => exact .inl h
  | b => exact .inr (.inl h)

end Sys2Proof.Machine
end

section
/-!
PROOFS. The relation `Sound`, that a step keeps the bounds and the agreement of the languages, and the operations of
Chapters 1 to 5 and of the clock: each is a chain of writes that keep it.
-/
namespace Sys2Proof.Machine

/-- A step keeps the bounds but for the feed link (`Sized`) and the agreement of the languages (R11). -/
structure Sound (s t : State) : Prop extends Sized s t where
  agree : s.LanguagesAgree → t.LanguagesAgree

theorem Sound.refl (s : State) : Sound s s := ⟨.refl s, id⟩

theorem Sound.trans {s t u : State} (h : Sound s t) (h' : Sound t u) : Sound s u :=
  ⟨h.toSized.trans h'.toSized, h'.agree ∘ h.agree⟩

section
variable {s t u : State} (h : Sound s t)
include h

theorem Sound.ite {c : Prop} {_ : Decidable c} (hu : Sound s u) : Sound s (if c then t else u) := by
  split
  · exact h
  · exact hu

theorem Sound.foldl {α : Type} {f : State → α → State} (l : List α) (hf : ∀ t x, Sound s t → Sound s (f t x)) :
    Sound s (l.foldl f t) := by
  induction l generalizing t with
  | nil => exact h
  | cons x rest ih => exact ih (hf t x h)

-- The writes

/-- A write of a channel that leaves its state, or that leaves it unbound as it was. -/
theorem Sound.setChannel {c : Nat} {v : Channel}
    (hv : v.state = (t.channel c).state ∨ (v.state.language = none ∧ (t.channel c).state.language = none)) :
    Sound s (t.setChannel c v) := by
  refine ⟨h.toSized.setChannel, fun hs => agree_of_same (h.agree hs) (fun hm => by simpa using hm)
    (fun l => language_kept (setChannel_language t c v l)) (fun x => ?_) fun b => by rw [setChannel_booth]⟩
  rw [channel_setChannel]
  split
  next hx => exact hx ▸ hv
  next => exact .inl rfl

/-- A write of a booth that leaves its configuration, with a taker set that rises and does not hold the booth itself. -/
theorem Sound.writeBooth {b : Nat} {v : Booth} (hc : v.config = (t.booth b).config)
    (ht : t.TakersRise → v.takers.Pairwise (· < ·) ∧ b ∉ v.takers) : Sound s (t.setBooth b v) := by
  refine ⟨h.toSized.writeBooth ht, fun hs => agree_of_same (h.agree hs) (fun hm => by simpa using hm)
    (fun l => language_kept (setBooth_language t b v l)) (fun c => .inl (by rw [setBooth_channel])) fun x => ?_⟩
  rw [booth_setBooth]
  split
  next hx => exact hx ▸ hc
  next => rfl

/-- A write of a booth that leaves its configuration and its taker set. -/
theorem Sound.setBooth {b : Nat} {v : Booth} (hc : v.config = (t.booth b).config)
    (ht : v.takers = (t.booth b).takers) : Sound s (t.setBooth b v) := h.writeBooth hc fun hr => ht ▸ hr b

theorem Sound.setTakers {b : Nat} {takers : List Nat}
    (ht : t.TakersRise → takers.Pairwise (· < ·) ∧ b ∉ takers) :
    Sound s (t.setBooth b { t.booth b with takers := takers }) := h.writeBooth rfl ht

theorem Sound.dropFromTakers {b x : Nat} :
    Sound s (t.setBooth b { t.booth b with takers := setDel x (t.booth b).takers }) :=
  h.setTakers fun hr => ⟨setDel_rising x (hr b).1, fun hb => (hr b).2 ((mem_setDel x b _).1 hb).1⟩

theorem Sound.addToTakers {b x : Nat} (hx : b ≠ x) :
    Sound s (t.setBooth b { t.booth b with takers := setAdd x (t.booth b).takers }) :=
  h.setTakers fun hr => ⟨setAdd_rising x (hr b).1, fun hb => ((mem_setAdd x b _).1 hb).elim hx (hr b).2⟩

theorem Sound.setAccount {i : Nat} {v : Account} : Sound s (t.setAccount i v) :=
  h.trans ⟨(Sized.refl t).setAccount, fun ht => agree_of_tables ht (setAccount_marker t i v) (setAccount_language t i v)
    (setAccount_channel t i v) (setAccount_booth t i v)⟩

theorem Sound.setTariff {i : Nat} {v : Tariff} : Sound s (t.setTariff i v) :=
  ⟨h.toSized.setTariff, fun hs => agree_of_same (h.agree hs) id (fun _ => ⟨⟨rfl, rfl, rfl⟩, fun _ => id⟩)
    (fun _ => .inl rfl) (fun _ => rfl)⟩

theorem Sound.setReceiver {i : Nat} {v : Option Receiver} : Sound s (t.setReceiver i v) :=
  h.trans ⟨(Sized.refl t).setReceiver, id⟩

theorem Sound.setFilter {i : Nat} {v : Filter} : Sound s (t.setFilter i v) :=
  h.trans ⟨(Sized.refl t).setFilter, id⟩

theorem Sound.setReport {i : Nat} {v : ClassReport} : Sound s (t.setReport i v) :=
  h.trans ⟨(Sized.refl t).setReport, id⟩

theorem Sound.setBuffer {r : Rack} {v : Option Settlement} : Sound s (t.setBuffer r v) :=
  h.trans ⟨(Sized.refl t).setBuffer, by cases r <;> exact id⟩

theorem Sound.setPort {p : Port} {q : PortState} (hq : (t.port p).Within → q.Within) :
    Sound s (t.setPort p q) :=
  h.trans ⟨(Sized.refl t).setPort hq, by cases p <;> exact id⟩

theorem Sound.notify {p : Port} {n : Notice} : Sound s (t.notify p n) := h.setPort fun hp => hp.post n

theorem Sound.setRack {r : Rack} {e : RackEngine}
    (hq : (t.rack r).queue.length ≤ Config.queueLimit → e.queue.length ≤ Config.queueLimit) :
    Sound s (t.setRack r e) :=
  h.trans ⟨(Sized.refl t).setRack hq, by cases r <;> exact id⟩

theorem Sound.feedWork : Sound s t.feedWork :=
  h.trans ⟨(Sized.refl t).feedWork, fun ht => agree_of_tables ht (feedWork_marker t) (feedWork_language t)
    (feedWork_channel t) (feedWork_booth t)⟩

theorem Sound.feedStart : Sound s t.feedStart :=
  ⟨⟨h.pending, h.ports, h.queues, h.clock, h.tables, h.profile, h.takers⟩, h.agree⟩

theorem Sound.setLine {line : Option (Nat × LinkMessage)} : Sound s { t with line := line } :=
  ⟨⟨h.pending, h.ports, h.queues, h.clock, h.tables, h.profile, h.takers⟩, h.agree⟩

theorem Sound.setFeed {feed : FeedEngine} : Sound s { t with feed := feed } :=
  ⟨⟨h.pending, h.ports, h.queues, h.clock, h.tables, h.profile, h.takers⟩, h.agree⟩

theorem Sound.setClock {second minute : Nat} {suspect : Bool} (hsecond : t.second < 60 → second < 60)
    (hminute : t.minute ≤ Config.topMinute → minute ≤ Config.topMinute) :
    Sound s { t with second := second, minute := minute, suspect := suspect } :=
  ⟨⟨h.pending, h.ports, h.queues, fun hc => ⟨hsecond (h.clock hc).1, fun hm =>
    ⟨hminute ((h.clock hc).2 hm).1, ((h.clock hc).2 hm).2⟩⟩, h.tables, h.profile, h.takers⟩, h.agree⟩

theorem Sound.setDay {day : Nat} (hday : day ≤ Config.topDay) : Sound s { t with day := day } :=
  ⟨⟨h.pending, h.ports, h.queues, fun hc => ⟨(h.clock hc).1, fun hm => ⟨((h.clock hc).2 hm).1, hday⟩⟩, h.tables,
    h.profile, h.takers⟩, h.agree⟩

theorem Sound.dropReservation {p : Port} : Sound s (t.dropReservation p) := h.setPort id

theorem Sound.consume {c : Bool} {p : Port} : Sound s (t.consume c p) := h.dropReservation.ite h

theorem Sound.clearPresence {b : Nat} : Sound s (t.clearPresence b) :=
  ⟨⟨h.pending, fun hs p => by cases p; exacts [h.ports hs .ops, h.ports hs .deskA, h.ports hs .deskB], h.queues,
    h.clock, h.tables, h.profile, h.takers⟩, h.agree⟩

theorem Sound.setFault {b : Nat} : Sound s (t.setFault b) :=
  ⟨⟨h.pending, fun hs p => by cases p; exacts [h.ports hs .ops, h.ports hs .deskA, h.ports hs .deskB], h.queues,
    h.clock, h.tables, h.profile, h.takers⟩, h.agree⟩

theorem Sound.takeLatches {p : Port} {b : Nat} : Sound s (t.takeLatches p b) := h.setPort id

-- Chapter 1: languages and channels

theorem Sound.channelChanged {c : Nat} : Sound s (t.channelChanged c) :=
  h.notify (p := .ops) (n := .channelChanged c (t.channel c))

/-- A write of an owner field: an owner is given to a defined language alone. -/
theorem Sound.setOwner {l : Nat} {o : Option Nat}
    (hd : t.LanguagesAgree → t.marker = true → o ≠ none → (t.language l).defined = true) :
    Sound s (t.setOwner l o) := by
  refine h.trans ⟨?_, fun ht => agree_setOwner ht (hd ht)⟩
  unfold State.setOwner State.followOwner
  dsimp only
  split
  · exact .refl t
  split
  · exact (Sized.refl t).setLanguage.notify
  split
  · exact (Sized.refl t).setLanguage.notify
  · rw [channelChanged_eq]
    exact (Sized.refl t).setLanguage.notify.setChannel.notify

theorem Sound.freeOwner {l : Nat} : Sound s (t.setOwner l none) := h.setOwner fun _ _ hne => absurd rfl hne

theorem Sound.release {b : Nat} {l : Option Nat} : Sound s (t.release b l) := by
  cases l with
  | none => exact h
  | some l => exact h.freeOwner.ite h

theorem Sound.acquire {b l : Nat} (hl : ∃ x, (t.booth x).config.names l) (hu : t.acquire b l = some u) :
    Sound s u := by
  obtain ⟨x, hx⟩ := hl
  unfold State.acquire at hu
  split at hu
  · exact Option.some.inj hu ▸ h.setOwner fun ht hm _ => agree_names ht hm hx
  · split at hu
    · exact Option.some.inj hu ▸ h
    · exact nomatch hu

theorem Sound.switchTo {b y : Nat} {x : Option Nat} (hy : ∃ x, (t.booth x).config.names y)
    (hu : t.switchTo b x y = some u) : Sound s u := by
  obtain ⟨z, hz⟩ := hy
  unfold State.switchTo at hu
  split at hu
  · exact Option.some.inj hu ▸ h
  split at hu
  · refine Option.some.inj hu ▸ h.release.setOwner fun ht hm _ => agree_names ht hm (b := z) ?_
    rwa [release_booth]
  · split at hu
    · exact Option.some.inj hu ▸ h.release
    · exact nomatch hu

theorem Sound.endRedirect {x : Nat} {cause : Cause} : Sound s (t.endRedirect x cause) := by
  unfold State.endRedirect
  split
  next hx => exact (h.setChannel (.inr ⟨rfl, by rw [hx]; rfl⟩)).channelChanged.notify
  next => exact h

theorem Sound.endRedirectsTo {c : Nat} : Sound s (t.endRedirectsTo c) :=
  h.foldl _ fun _ _ h => h.endRedirect.ite h

theorem Sound.retarget {a b x : Nat} : Sound s (t.retarget a b x) := by
  unfold State.retarget
  split
  next hx => exact (h.setChannel (.inr ⟨rfl, by rw [hx]; rfl⟩)).channelChanged.ite h
  next => exact h

theorem Sound.countHold {c : Nat} : Sound s (t.countHold c) := by
  unfold State.countHold
  split
  next hc => exact h.endRedirect.ite (h.setChannel (.inr ⟨rfl, by rw [hc]; rfl⟩))
  next => exact h

theorem Sound.countChannelMinute {c : Nat} : Sound s (t.countChannelMinute c) := by
  unfold State.countChannelMinute
  split
  · exact h.setChannel (.inl rfl)
  · exact h

-- Chapter 4: the relay map

theorem Sound.flashLamp {b : Nat} {lamp : FlashLamp} : Sound s (t.flashLamp b lamp) := h.setBooth rfl rfl

theorem Sound.leaveSource {x : Nat} : Sound s (t.leaveSource x) := by
  unfold State.leaveSource
  split
  · exact h
  · exact h.dropFromTakers

theorem Sound.writeInput {x : Nat} {i : Input} {push : Bool} : Sound s (t.writeInput x i push) := h.setBooth rfl rfl

theorem Sound.joinSource {x b : Nat} {push : Bool} (hx : b ≠ x) : Sound s (t.joinSource x b push) :=
  h.leaveSource.writeInput.addToTakers hx

theorem Sound.select {x : Nat} {i : Input} {push : Bool} (hu : t.select x i push = .selected u) : Sound s u := by
  unfold State.select at hu
  split at hu
  · exact nomatch hu
  split at hu
  · exact Selection.selected.inj hu ▸ h.leaveSource.writeInput
  · split at hu
    · exact nomatch hu
    next b _ _ hcheck =>
      have hself : b ≠ x := fun e => by simp [State.relayCheck, e] at hcheck
      exact Selection.selected.inj hu ▸ h.joinSource hself

theorem Sound.selectByKey {x : Nat} {i : Input} {push : Bool} : Sound s (t.selectByKey x i push) := by
  unfold State.selectByKey
  split
  next => exact h
  next u hu => exact h.select hu
  next => exact h.flashLamp

theorem Sound.floorKey {x : Nat} : Sound s (t.floorKey x) := h.selectByKey.ite h

theorem Sound.relayKey {x b : Nat} : Sound s (t.relayKey x b) := h.selectByKey.ite h

theorem Sound.previousKey {x : Nat} : Sound s (t.previousKey x) := (h.setBooth (by rfl) (by rfl)).selectByKey.ite h

theorem Sound.dropTaker {b c : Nat} {cause : Cause} : Sound s (t.dropTaker b cause c) := by
  unfold State.dropTaker
  exact (h.setBooth (by rfl) (by rfl)).dropFromTakers.notify

theorem Sound.followOrDropOne {b c : Nat} {language : Option Nat} : Sound s (t.followOrDropOne b language c) := by
  cases language with
  | none => exact h.dropTaker
  | some l => exact Sound.ite h.notify h.dropTaker

theorem Sound.followOrDrop {b : Nat} {language : Option Nat} : Sound s (t.followOrDrop b language) :=
  h.foldl _ fun _ _ h => h.followOrDropOne

theorem Sound.relayLoss {b : Nat} : Sound s (t.relayLoss b) :=
  (h.foldl _ fun _ _ h => h.dropTaker).leaveSource.setBooth rfl rfl

-- Chapters 2 and 3: booths

theorem Sound.goOffAir {b n : Nat} {language : Option Nat} : Sound s (t.goOffAir b n language) :=
  (h.setBooth (by rfl) (by rfl)).release

theorem Sound.goOnAir {b n l : Nat} (hl : (t.booth b).language = some l) (hu : t.goOnAir b n l = some u) :
    Sound s u := by
  unfold State.goOnAir at hu
  split at hu
  next => exact nomatch hu
  next acquired hacquired =>
    exact Option.some.inj hu ▸ (h.acquire ⟨b, names_of_outputLanguage hl⟩ hacquired).setBooth rfl rfl

theorem Sound.transfer {b outgoing incoming : Nat} : Sound s (t.transfer b outgoing incoming) := by
  unfold State.transfer
  exact (h.setBooth (by rfl) (by rfl)).notify

theorem Sound.micGoOn {b n : Nat} : Sound s (t.micGoOn b n) := by
  unfold State.micGoOn
  split
  · exact h.flashLamp
  next l hl =>
    split
    next => exact h.flashLamp
    next u hu => exact h.goOnAir hl hu

theorem Sound.micOff {b n a : Nat} : Sound s (t.micOff b n a) := by
  unfold State.micOff
  split
  · exact Sound.ite (h.setBooth (by rfl) (by rfl)) h.flashLamp
  · split
    · exact h.transfer
    · exact h.setBooth rfl rfl

theorem Sound.micOn {b n : Nat} : Sound s (t.micOn b n) := by
  unfold State.micOn
  split
  · exact h.transfer
  · exact h.goOffAir

theorem Sound.micKey {b n : Nat} : Sound s (t.micKey b n) := by
  refine Sound.ite ?_ h
  split
  · exact h
  · split
    · exact h.micGoOn
    · exact h.micOff
  all_goals exact h.micOn

theorem Sound.muteKey {b n : Nat} {before after : SeatState} : Sound s (t.muteKey b n before after) :=
  (h.setBooth (by rfl) (by rfl)).ite h

theorem Sound.changeOutput {b : Nat} {o : Output} {former : Option Nat} : Sound s (t.changeOutput b o former) :=
  (h.setBooth (by rfl) (by rfl)).ite (h.setBooth (by rfl) (by rfl)).followOrDrop

theorem Sound.takeOutput {b : Nat} {o : Output} : Sound s (t.takeOutput b o) := by
  unfold State.takeOutput
  dsimp only
  split
  next hy =>
    split
    next => exact h.flashLamp
    next u hu => exact (h.switchTo ⟨b, names_of_outputLanguage hy⟩ hu).changeOutput
  · exact h.changeOutput

theorem Sound.outputAKey {b : Nat} : Sound s (t.outputAKey b) := h.ite (h.flashLamp.ite h.takeOutput)

theorem Sound.outputBKey {b : Nat} : Sound s (t.outputBKey b) :=
  h.ite (h.flashLamp.ite (h.flashLamp.ite h.takeOutput))

theorem Sound.overdueTest {b n : Nat} : Sound s (t.overdueTest b n) := (h.setBooth (by rfl) (by rfl)).notify.ite h

theorem Sound.countSeatMinute {b n : Nat} : Sound s (t.countSeatMinute b n) :=
  (h.setBooth (by rfl) (by rfl)).overdueTest.ite h

theorem Sound.lapse {b : Nat} : Sound s (t.lapse b) := by
  unfold State.lapse
  dsimp only
  split
  · exact h
  · exact (h.setBooth (by rfl) (by rfl)).notify

theorem Sound.countWindow {b : Nat} : Sound s (t.countWindow b) := by
  unfold State.countWindow
  dsimp only
  split
  · exact h
  · exact h.lapse.ite (h.setBooth rfl rfl)

theorem Sound.configLanguage {b : Nat} {x : Option Nat} : Sound s (t.configLanguage b x) := by
  unfold State.configLanguage
  dsimp only
  split
  · exact h
  split
  · exact h.goOffAir
  next y hy =>
    split
    next u hu => exact h.switchTo ⟨b, names_of_outputLanguage hy⟩ hu
    next => exact h.goOffAir

theorem Sound.configRelay {b : Nat} : Sound s (t.configRelay b) := by
  unfold State.configRelay
  dsimp only
  split
  · exact h
  split
  · exact h.dropTaker
  · exact h.ite h.dropTaker

theorem Sound.configRelays {b : Nat} {changed : Bool} {y : Option Nat} : Sound s (t.configRelays b changed y) :=
  h.foldl _ fun _ _ h => h.configRelay.ite h.followOrDropOne

/-- A configuration of one of the 16 booths that names defined languages alone. -/
theorem Sound.configure {b : Nat} {c : BoothConfig} (h1 : 1 ≤ b) (h16 : b ≤ 16)
    (hc : ∀ l, c.names l → (t.language l).defined = true) : Sound s (t.configure b c) := by
  unfold State.configure
  extract_lets v written y switched relayed
  have hwritten : Sound s written :=
    h.trans ⟨(Sized.refl t).writeBooth fun hr => hr b, fun ht => agree_setConfig ht h1 h16 hc⟩
  have hswitched : Sound s switched := hwritten.ite hwritten.configLanguage
  have hrelayed : Sound s relayed := hswitched.configRelays
  split
  · exact hrelayed
  · exact hrelayed.ite hrelayed.overdueTest

theorem Sound.forceTake {b n : Nat} : Sound s (t.forceTake b n).1 := by
  unfold State.forceTake
  dsimp only
  split
  · split
    · exact h
    · exact h.transfer
  split
  · exact h
  next l hl =>
    split
    next => exact h
    next u hu => exact h.goOnAir hl hu

-- Chapter 5: the booth link

theorem Sound.setLink {b : Nat} {k : Link} : Sound s (t.setLink b k) := h.setBooth rfl rfl

theorem Sound.inSlot {b : Nat} {own : State → State} (hown : ∀ t, Sound s t → Sound s (own t)) :
    Sound s (t.inSlot b own) := by
  unfold State.inSlot
  split
  · exact h
  · split
    · exact hown _ h.setLine
    · exact h

theorem Sound.controllerLoss {b : Nat} : Sound s (t.controllerLoss b) := by
  unfold State.controllerLoss
  extract_lets v released w reset
  have hreleased : Sound s released := by
    show Sound s (match v.onAirSeat with | none => t | some n => t.goOffAir b n v.language)
    split
    · exact h
    · exact h.goOffAir
  clear_value released
  exact hreleased.setBooth rfl rfl

theorem Sound.loseBooth {b : Nat} {cause : Cause} : Sound s (t.loseBooth b cause) := by
  unfold State.loseBooth
  extract_lets seat k unlinked
  have hunlinked : Sound s unlinked := h.setLink
  exact hunlinked.notify.controllerLoss.relayLoss.clearPresence

theorem Sound.judge {b : Nat} {a : Abilities} : Sound s (t.judge b a) := h.setLink.notify.setFault.ite h.setLink

theorem Sound.noAcknowledgement {b : Nat} : Sound s (t.noAcknowledgement b) := h.setLink.ite h

theorem Sound.join {b : Nat} {g : Abilities} : Sound s (t.join b g) := by
  unfold State.join
  exact (h.setBooth (by rfl) (by rfl)).notify

theorem Sound.missedPoll {b : Nat} : Sound s (t.missedPoll b) := h.loseBooth.ite h.setLink

theorem Sound.unanswered {b : Nat} : Sound s (t.unanswered b) := by
  unfold State.unanswered
  split
  · exact h
  · exact h
  · exact h.noAcknowledgement
  · exact h.missedPoll

theorem Sound.deliver {b : Nat} {e : KeyEvent} : Sound s (t.deliver b e) := by
  cases e with
  | mic n => exact h.micKey.feedWork
  | muteDown n => exact h.muteKey.feedWork
  | muteUp n => exact h.muteKey.feedWork
  | outputA => exact h.outputAKey.feedWork
  | outputB => exact h.outputBKey.feedWork
  | floorSel => exact h.floorKey.feedWork
  | relaySel x => exact h.relayKey.feedWork
  | previous => exact h.previousKey.feedWork
  | other _ => exact h

theorem Sound.takeReply {b : Nat} {sequence : Fin 2} {events : List KeyEvent} :
    Sound s (t.takeReply b sequence events) :=
  h.missedPoll.ite (h.setLink.ite (h.foldl _ fun _ _ h => h.deliver).setLink)

theorem Sound.statusReply {b : Nat} {sequence : Fin 2} {events : List KeyEvent} :
    Sound s (t.statusReply b sequence events) := h.ite (h.takeReply.ite h.unanswered)

theorem Sound.takeAdvertise {b : Nat} {a : Abilities} : Sound s (t.takeAdvertise b a) := by
  refine h.ite ?_
  split
  · exact h.judge
  · exact h.noAcknowledgement
  · exact h.loseBooth.judge
  · exact h

theorem Sound.takeGrantAck {b : Nat} {taken : Abilities} : Sound s (t.takeGrantAck b taken) :=
  h.ite (h.join.ite h.unanswered)

theorem Sound.endFaultWait {b : Nat} : Sound s (t.endFaultWait b) := h.setLink.ite h

theorem Sound.countWait {b : Nat} : Sound s (t.countWait b) := (h.endFaultWait.ite h.setLink).ite h

theorem Sound.beginSlot {b : Nat} : Sound s (t.beginSlot b) := by
  refine Sound.ite ?_ h.setLine
  exact Sound.ite h.setLine.setLink h.setLine

theorem Sound.boothSlot {b : Nat} : Sound s (t.boothSlot b) :=
  ((h.foldl _ fun _ _ h => h.countWait).ite h).beginSlot

-- Section 11.1: the clock

theorem Sound.tickMinute : Sound s t.tickMinute := by
  have hclock : Sound s { t with second := 0, minute := satAdd Config.topMinute t.minute 1 } :=
    h.setClock (fun _ => by decide) fun _ => Nat.min_le_left _ _
  exact (hclock.foldl _ fun _ _ h => h.countChannelMinute).foldl _ fun _ _ h => h.countSeatMinute

theorem Sound.countSecond : Sound s t.countSecond := by
  unfold State.countSecond
  split
  · exact h.tickMinute
  · exact h.setClock (fun _ => by omega) id

theorem Sound.tickSecond : Sound s t.tickSecond :=
  ((h.foldl _ fun _ _ h => h.countHold).foldl _ fun _ _ h => h.countWindow).countSecond

end

end Sys2Proof.Machine
end

section
/-!
PROOFS. The operations of Chapters 6 to 8 keep the bounds and the agreement of the languages (`Sound`): accounts and
settlements, the racks and their transactions.
-/
namespace Sys2Proof.Machine

section
variable {s t : State} (h : Sound s t)
include h

-- Entries, listeners and slots

/-- A write of a language that leaves its channel, its owner and whether it is defined, and a blank record blank. -/
theorem Sound.setLanguage {i : Nat} {v : Language} (hchannel : v.channel = (t.language i).channel)
    (howner : v.owner = (t.language i).owner) (hdefined : v.defined = (t.language i).defined)
    (hblank : t.LanguagesAgree → t.marker = true → t.language i = .undefined → v = .undefined) :
    Sound s (t.setLanguage i v) := by
  refine h.trans ⟨(Sized.refl t).setLanguage, fun ht hm => ?_⟩
  have hmt : t.marker = true := by simpa using hm
  have hafter : (t.setLanguage i v).LanguagesAgree := agree_of_same ht (fun _ => hmt)
    (fun k => ?_) (fun c => .inl (by rw [setLanguage_channel])) fun b => by rw [setLanguage_booth]
  · exact hafter hm
  rw [language_setLanguage]
  split
  next hk => exact hk ▸ ⟨⟨hchannel, howner, hdefined⟩, fun _ => hblank ht hmt⟩
  next => exact ⟨⟨rfl, rfl, rfl⟩, fun _ => id⟩

theorem Sound.dropListener {l : Nat} : Sound s (t.dropListener l) :=
  h.setLanguage rfl rfl rfl (fun _ _ hl => by rw [hl]; rfl)

theorem Sound.addListener {l : Nat} (hl : (t.language l).defined = true) : Sound s (t.addListener l) :=
  h.setLanguage rfl rfl rfl (fun _ _ hb => by rw [hb] at hl; exact nomatch hl)

theorem Sound.setSlot {r : Rack} {n : Nat} {v : Slot} : Sound s (t.setSlot r n v) := h.setRack id

theorem Sound.setOpen {ref : AccountRef} {o : OpenAccount} : Sound s (t.setOpen ref o) := h.setAccount

theorem Sound.removeEntry {ref : AccountRef} {i : Nat} : Sound s (t.removeEntry ref i) := by
  unfold State.removeEntry
  split
  · exact h
  · exact h.setOpen

theorem Sound.holdEntry {ref : AccountRef} {i : Nat} : Sound s (t.holdEntry ref i) := by
  unfold State.holdEntry
  split
  · exact h
  · exact h.setOpen

-- Chapter 8: settlements and returns

theorem Sound.settle {ref : AccountRef} {o : OpenAccount} {r : Rack} : Sound s (t.settle ref o r) := by
  unfold State.settle
  exact h.setBuffer.setAccount.setReport.notify

theorem Sound.commitReturn {r : Rack} {n : Nat} {w : ReturnWork} : Sound s (t.commitReturn r n w) := by
  unfold State.commitReturn
  exact h.setOpen.setReceiver.dropListener.setSlot.notify

theorem Sound.commit {r : Rack} {n : Nat} {w : ReturnWork} : Sound s (t.commit r n w) := by
  rw [commit_eq]
  exact h.commitReturn.settle.ite h.commitReturn

theorem Sound.holdReturn {r : Rack} {n : Nat} {w : ReturnWork} : Sound s (t.holdReturn r n w) := by
  unfold State.holdReturn
  exact h.setSlot.notify

theorem Sound.decideReturn {r : Rack} {n : Nat} {w : ReturnWork} : Sound s (t.decideReturn r n w) :=
  h.holdReturn.ite h.commit

theorem Sound.returnMarked {r : Rack} {n : Nat} : Sound s (t.returnMarked r n) := by
  unfold State.returnMarked
  dsimp only
  split
  · exact h.setSlot
  · exact h.setSlot.decideReturn

theorem Sound.tellAbandoned {r : Rack} {n : Nat} {former : Slot} {cause : Cause} :
    Sound s (t.tellAbandoned r n former cause) := by
  unfold State.tellAbandoned
  split
  · exact h
  · split
    · exact h.notify
    all_goals exact h

theorem Sound.resumeSlot {r : Rack} {n : Nat} : Sound s (t.resumeSlot r n) := by
  refine h.ite ?_
  split
  · exact h
  · exact h.decideReturn

theorem Sound.resume {r : Rack} : Sound s (t.resume r) := h.foldl _ fun _ _ h => h.resumeSlot

theorem Sound.lose {p : Port} {i l : Nat} {v : Receiver} {ref : AccountRef} {issuing : Rack} {issued : Stamp}
    {o : OpenAccount} : Sound s (t.lose p i v ref l issuing issued o).1 := by
  unfold State.lose
  dsimp only
  split
  · exact h.setOpen.setReceiver.dropListener.settle
  · exact h.setOpen.setReceiver.dropListener

-- Chapter 6: the rack engines

theorem Sound.setBus {r : Rack} {b : Bus} : Sound s (t.setBus r b) := h.setRack id

theorem Sound.kickRack {r : Rack} : Sound s (t.kickRack r) := by
  obtain ⟨bus, due, hkick⟩ := kickRack_eq t r
  exact hkick ▸ h.setRack id

theorem Sound.scanRound {r : Rack} : Sound s (t.scanRound r) := by
  unfold State.scanRound
  exact (h.setRack (by exact id)).kickRack

theorem Sound.dropQueued {r : Rack} {n : Nat} : Sound s (t.dropQueued r n) :=
  h.setRack fun hq => Nat.le_trans (List.length_filter_le _ _) hq

theorem Sound.failIssue {r : Rack} {n : Nat} {former : Slot} {cause : Cause} :
    Sound s (t.failIssue r n former cause) := by
  unfold State.failIssue
  split
  · exact h.setReceiver.removeEntry.dropListener.dropQueued.notify
  · exact h

theorem Sound.failWork {r : Rack} {n : Nat} {former : Slot} {cause : Cause} :
    Sound s (t.failWork r n former cause) := by
  unfold State.failWork
  split
  · exact h.failIssue
  · exact h.tellAbandoned
  · exact h.tellAbandoned
  all_goals exact h

theorem Sound.faultSlot {r : Rack} {n : Nat} {kind : TransactionKind} : Sound s (t.faultSlot r n kind) := by
  unfold State.faultSlot
  exact h.setSlot.notify.failWork

theorem Sound.departSlot {r : Rack} {n : Nat} : Sound s (t.departSlot r n) := by
  unfold State.departSlot
  exact h.setSlot.failWork

theorem Sound.slotLeft {r : Rack} {n : Nat} : Sound s (t.slotLeft r n) := by
  unfold State.slotLeft
  exact h.setSlot.failWork.notify

theorem Sound.dockEnd {r : Rack} {answers : Transaction → Bool} {lineFault : Bool} {own : Transaction → State → State}
    (hown : ∀ w t, Sound s t → Sound s (own w t)) : Sound s (t.dockEnd r answers lineFault own) := by
  unfold State.dockEnd
  split
  · exact h
  · exact h.setBus.kickRack.ite h
  · exact h.ite ((h.setBus.faultSlot.kickRack.ite h.setSlot).ite (hown _ _ h.setBus.setSlot).kickRack)

theorem Sound.probeAnswer {r : Rack} {n : Nat} : Sound s (t.probeAnswer r n) := by
  unfold State.probeAnswer
  dsimp only
  split
  · exact h.setSlot
  · exact h.setSlot
  · exact h.setSlot
  · exact h.setSlot
  · exact h.setSlot
  all_goals exact h

theorem Sound.probeMiss {r : Rack} {n : Nat} : Sound s (t.probeMiss r n) := by
  unfold State.probeMiss
  dsimp only
  split
  · exact h.setSlot
  · exact h.setSlot
  · exact h.slotLeft
  · exact h.slotLeft.ite h.setSlot
  · exact h.slotLeft.ite h.setSlot
  all_goals exact h

theorem Sound.occupy {r : Rack} {n : Nat} {ident : Ident} : Sound s (t.occupy r n ident) := h.setSlot

theorem Sound.foreignUnit {r : Rack} {n : Nat} {ident : Ident} : Sound s (t.foreignUnit r n ident) :=
  h.notify (p := deskOf r) (n := .foreignUnit n ident.serial ident.battery)

theorem Sound.slotArrived {r : Rack} {n i : Nat} {v : Receiver} {ident : Ident} :
    Sound s (t.slotArrived r n i v ident) :=
  h.notify (p := deskOf r) (n := .slotArrived n ident.serial i v.state ident.battery)

theorem Sound.identIssued {r : Rack} {n : Nat} {ident : Ident} : Sound s (t.identIssued r n ident) :=
  h.occupy.foreignUnit.ite h.setSlot

theorem Sound.identDone {r : Rack} {n : Nat} {ident : Ident} : Sound s (t.identDone r n ident) := by
  unfold State.identDone
  split
  · exact h.occupy.foreignUnit
  · dsimp only
    split
    · exact h.setReceiver.occupy.slotArrived.ite h.setReceiver.setSlot
    · exact h.setReceiver.occupy.slotArrived.ite h.setReceiver.setSlot
    · exact h.setReceiver.identIssued
    · exact h.setReceiver.setSlot
    · exact h.setReceiver.occupy.foreignUnit

theorem Sound.repairDone {r : Rack} {n : Nat} {ident : Ident} : Sound s (t.repairDone r n ident) := by
  unfold State.repairDone
  dsimp only
  split
  · exact h.occupy.foreignUnit
  · split
    · exact h.setReceiver.occupy.notify.notify
    · exact h.occupy.slotArrived
    · exact h.occupy.slotArrived
    · exact h.occupy.foreignUnit
    · exact h.identIssued

theorem Sound.presetDone {r : Rack} {channel : Nat} : Sound s (t.presetDone r channel) := by
  unfold State.presetDone
  split
  · exact h
  next hq => exact h.setRack fun hlen => by rw [hq] at hlen; exact hlen

theorem Sound.completeIssue {r : Rack} : Sound s (t.completeIssue r) := by
  unfold State.completeIssue
  split
  · exact h
  next q rest hq =>
    dsimp only
    split
    · exact h
    next i v _ =>
      refine (h.setReceiver.holdEntry.setSlot.setRack fun hlen => ?_).notify
      rw [queue_setSlot] at hlen
      have hsame (w) : ((((t.setReceiver i w).holdEntry q.account i).rack r)).queue = q :: rest := by
        unfold State.holdEntry
        split <;> simp [hq]
      rw [hsame] at hlen
      exact Nat.le_of_succ_le hlen

/-- An issue is accepted for a defined language, with room in the issue queue (R118, R119). -/
theorem Sound.acceptIssue {r : Rack} {ref : AccountRef} {o : OpenAccount} {n l i : Nat} {v : Receiver}
    (hl : (t.language l).defined = true) (hroom : (t.rack r).queue.length < Config.queueLimit) :
    Sound s (t.acceptIssue r ref o n l i v) := by
  unfold State.acceptIssue
  refine ((h.setReceiver.setOpen.addListener (by simpa using hl)).setSlot.setRack fun _ => ?_).kickRack
  simpa [State.addListener] using hroom

theorem Sound.rackReset {r : Rack} : Sound s (t.rackReset r) := by
  unfold State.rackReset
  exact ((h.foldl _ fun _ _ h => h.failIssue).setRack fun _ => Nat.zero_le _).kickRack

end

end Sys2Proof.Machine
end

section
/-!
PROOFS. The client commands keep the bounds and the agreement of the languages (`Sound`).
-/
namespace Sys2Proof.Machine

variable (s : State) (p : Port) (payload : List Byte)

theorem channelOk_range {s : State} {c : Byte} (h : s.channelOk c = true) : 1 ≤ c.toNat ∧ c.toNat ≤ 24 := by
  simp only [State.channelOk, Bool.and_eq_true, decide_eq_true_eq] at h
  exact h.1

theorem sound_doLangDefine : Sound s (doLangDefine p payload s).1 := by
  unfold doLangDefine
  dsimp only
  repeat' split
  any_goals exact .refl s
  next hrange _ _ hundef =>
    refine Sound.consume ⟨(Sized.refl s).setLanguage, fun hs hm => ?_⟩
    have hblank := agree_language hs (by simpa using hm) _ (by simpa using hundef)
    refine agree_setLanguage hs (by rw [hblank]; rfl) rfl ?_ hm
    simp only [Bool.or_eq_true, decide_eq_true_eq, not_or] at hrange
    exact Nat.le_of_not_lt hrange.1
  next hdef _ =>
    refine Sound.consume (Sound.setLanguage (.refl s) (by rfl) (by rfl) (by rfl) fun _ _ hblank => ?_)
    simp [hblank, Language.undefined] at hdef

theorem sound_doLangRemove : Sound s (doLangRemove p payload s).1 := by
  unfold doLangRemove
  dsimp only
  repeat' split
  any_goals exact .refl s
  next index _ _ hbusy =>
    simp only [Bool.or_eq_true, not_or, Bool.not_eq_true, Option.isSome_eq_false_iff, Option.isNone_iff_eq_none] at hbusy
    obtain ⟨⟨⟨hchannel, -⟩, -⟩, hconf⟩ := hbusy
    refine ⟨(Sized.refl s).setLanguage, fun hs hm => ?_⟩
    refine agree_setLanguage hs hchannel rfl ⟨rfl, fun b hb => ?_⟩ hm
    obtain ⟨h1, h16, -⟩ := (hs (by simpa using hm)).2.2 b _ hb
    simp only [State.configured, List.any_eq_false, Bool.or_eq_true, decide_eq_true_eq, List.contains_iff_mem] at hconf
    refine hconf b (by simp; omega) ?_
    rcases hb with hb | hb | hb
    · exact .inl (.inl hb)
    · exact .inl (.inr hb)
    · exact .inr hb

theorem sound_doChanMap : Sound s (doChanMap p payload s).1 := by
  unfold doChanMap
  dsimp only
  repeat' split
  any_goals exact .refl s
  next channel language hrange hdef hbusy =>
    simp only [Bool.or_eq_true, Bool.not_eq_true', decide_eq_true_eq, not_or, Bool.not_eq_false,
      Bool.not_eq_true, Option.isSome_eq_false_iff, Option.isNone_iff_eq_none, Decidable.not_not] at hrange hdef hbusy
    obtain ⟨hfree, hnone⟩ := hbusy
    refine Sound.channelChanged ⟨(Sized.refl s).setChannel.setLanguage, fun hs hm => ?_⟩
    refine agree_rebind (new := some channel.toNat) hs (by simp) hdef (fun k => by simp [language_setLanguage])
      (fun x hx => ?_) (fun x hx => ?_) (fun b => by simp) hm
    · obtain rfl := Option.some.inj hx
      obtain ⟨h1, h24⟩ := channelOk_range hrange.1
      exact ⟨h1, h24, by simp, by rw [hfree]; rfl⟩
    · have hne : x ≠ channel.toNat := fun e => hx (e ▸ rfl)
      refine ⟨fun hxl => ?_, fun _ => by simp [channel_setChannel, hne]⟩
      have := (agree_of_language hs (by simpa using hm) hxl).1
      rw [hnone] at this
      exact nomatch this

theorem sound_doChanUnmap : Sound s (doChanUnmap p payload s).1 := by
  unfold doChanUnmap
  dsimp only
  repeat' split
  any_goals exact .refl s
  next channel _ _ _ _ _ _ _ _ _ _ l hl _ =>
    refine Sound.consume (Sound.endRedirectsTo (Sound.channelChanged
      ⟨(Sized.refl s).setChannel.setLanguage, fun hs hm => ?_⟩))
    have hms : s.marker = true := by simpa using hm
    have hlc := (agree_of_language hs hms hl).1
    refine agree_rebind (l := l) (new := none) hs (by simp) (agree_channel_defined hs hms hlc)
      (fun k => by simp [language_setLanguage]) (fun x hx => nomatch hx) (fun x _ => ?_) (fun b => by simp) hm
    by_cases hx : x = channel.toNat
    · subst hx
      exact ⟨fun _ => by simp [ChannelState.language], fun hne => absurd hl hne⟩
    · refine ⟨fun hxl => ?_, fun _ => by simp [channel_setChannel, hx]⟩
      have := (agree_of_language hs hms hxl).1
      exact absurd (Option.some.inj (this.symm.trans hlc)) hx

theorem sound_doChanMove : Sound s (doChanMove p payload s).1 := by
  unfold doChanMove
  dsimp only
  repeat' split
  any_goals exact .refl s
  next aByte bByte _ _ _ hrange _ _ l hl hfree =>
    simp only [Bool.or_eq_true, Bool.not_eq_true', decide_eq_true_eq, not_or, Bool.not_eq_false,
      Decidable.not_not] at hrange hfree
    obtain ⟨⟨-, hb⟩, hab⟩ := hrange
    obtain ⟨h1, h24⟩ := channelOk_range hb
    refine Sound.consume (Sound.foldl (Sound.channelChanged (Sound.channelChanged
      ⟨(Sized.refl s).setChannel.setLanguage.setChannel, fun hs hm => ?_⟩)) _ fun _ _ h => h.retarget)
    have hms : s.marker = true := by simpa using hm
    have hla := (agree_of_language hs hms hl).1
    refine agree_rebind (l := l) (new := some bByte.toNat) hs (by simp) (agree_channel_defined hs hms hla)
      (fun k => by simp [language_setLanguage]) (fun x hx => ?_) (fun x hx => ?_) (fun b => by simp) hm
    · obtain rfl := Option.some.inj hx
      refine ⟨h1, h24, ?_, by rw [hfree]; rfl⟩
      have hba : ¬ bByte.toNat = aByte.toNat := fun e => hab e.symm
      simp [channel_setChannel, hba]
    · have hxb : x ≠ bByte.toNat := fun e => hx (e ▸ rfl)
      by_cases hxa : x = aByte.toNat
      · subst hxa
        exact ⟨fun _ => by simp [ChannelState.language], fun hne => absurd hl hne⟩
      · refine ⟨fun hxl => ?_, fun _ => by simp [channel_setChannel, hxa, hxb]⟩
        have := (agree_of_language hs hms hxl).1
        exact absurd (Option.some.inj (this.symm.trans hla)) hxa

theorem sound_doChanFloorfill : Sound s (doChanFloorfill p payload s).1 := by
  unfold doChanFloorfill
  dsimp only
  repeat' split
  any_goals exact .refl s
  exact ((Sound.refl s).setChannel (by exact .inl rfl)).channelChanged

theorem undefinedIn_eq_false {s : State} {c : BoothConfig} (h : s.undefinedIn c = false) {l : Nat} (hl : c.names l) :
    (s.language l).defined = true := by
  simp only [State.undefinedIn, List.any_eq_false, Bool.not_eq_true', Bool.not_eq_false] at h
  refine h l ?_
  rcases hl with hl | hl | hl <;> simp [hl]

theorem sound_doBoothConfig : Sound s (doBoothConfig p payload s).1 := by
  unfold doBoothConfig
  dsimp only
  repeat' split
  any_goals exact .refl s
  · exact (Sound.refl s).consume
  next hrange _ hdef _ =>
    simp only [Bool.or_eq_true, Bool.not_eq_true', decide_eq_true_eq, not_or, Bool.not_eq_false, Bool.not_eq_true,
      State.boothOk, Bool.and_eq_true] at hrange hdef
    obtain ⟨⟨⟨⟨h1, h16⟩, -⟩, -⟩, -⟩ := hrange
    exact ((Sound.refl s).configure h1 h16 fun l hl => undefinedIn_eq_false hdef hl).consume

theorem sound_doBoothInput : Sound s (doBoothInput p payload s).1 := by
  unfold doBoothInput
  dsimp only
  repeat' split
  any_goals exact .refl s
  next u hu => exact (Sound.refl s).select hu

theorem sound_doSeatForceTake : Sound s (doSeatForceTake p payload s).1 := by
  unfold doSeatForceTake
  dsimp only
  repeat' split
  any_goals exact .refl s
  exact (Sound.refl s).forceTake

theorem sound_doSeatForceOff : Sound s (doSeatForceOff p payload s).1 := by
  unfold doSeatForceOff
  dsimp only
  repeat' split
  any_goals exact .refl s
  exact (Sound.refl s).goOffAir

theorem sound_doTariffWrite : Sound s (doTariffWrite p payload s).1 := by
  unfold doTariffWrite
  dsimp only
  repeat' split
  any_goals exact .refl s
  exact (Sound.refl s).setTariff.consume

theorem sound_doFilterWrite : Sound s (doFilterWrite p payload s).1 := by
  unfold doFilterWrite
  dsimp only
  repeat' split
  any_goals exact .refl s
  exact (Sound.refl s).setFilter

theorem num3_le_topMinute (a b c : Byte) : num3 a b c ≤ Config.topMinute := by
  have := a.isLt
  have := b.isLt
  have := c.isLt
  simp only [num3, num2, Config.topMinute]
  omega

theorem sound_doClockSet : Sound s (doClockSet p payload s).1 := by
  unfold doClockSet
  split
  next a b c => exact (Sound.refl s).setClock (fun _ => by decide) fun _ => num3_le_topMinute a b c
  next => exact .refl s

theorem sound_doDayClose : Sound s (doDayClose p payload s).1 := (Sound.refl s).setDay (Nat.min_le_left _ _)

theorem sound_doReceiverEnroll : Sound s (doReceiverEnroll p payload s).1 := by
  unfold doReceiverEnroll
  dsimp only
  repeat' split
  any_goals exact .refl s
  exact (Sound.refl s).setReceiver

theorem sound_doReceiverRetire : Sound s (doReceiverRetire p payload s).1 := by
  unfold doReceiverRetire
  dsimp only
  repeat' split
  any_goals exact .refl s
  all_goals exact (Sound.refl s).setReceiver

theorem sound_doReceiverService : Sound s (doReceiverService p payload s).1 := by
  unfold doReceiverService
  dsimp only
  repeat' split
  any_goals exact .refl s
  all_goals exact (Sound.refl s).setReceiver

theorem sound_doReportClear : Sound s (doReportClear p payload s).1 := by
  unfold doReportClear
  repeat' split
  all_goals dsimp only [refuse]
  · exact (Sound.refl s).foldl _ fun _ _ h => h.setChannel (.inl rfl)
  · exact (Sound.refl s).foldl _ fun _ _ h => h.setBooth rfl rfl
  · exact (Sound.refl s).foldl _ fun _ _ h => h.setReport
  all_goals exact .refl s

theorem Sound.setStore {s t : State} (h : Sound s t) {store : StoreImage} : Sound s { t with store := store } :=
  ⟨⟨h.pending, h.ports, h.queues, h.clock, h.tables, h.profile, h.takers⟩, h.agree⟩

theorem sound_doProfileWrite : Sound s (doProfileWrite p payload s).1 := by
  unfold doProfileWrite
  split
  · exact (Sound.refl s).setStore
  · exact .refl s

theorem sound_doAccountOpen : Sound s (doAccountOpen p payload s).1 := by
  unfold doAccountOpen
  dsimp only
  repeat' split
  any_goals exact .refl s
  exact (Sound.refl s).setOpen

theorem sound_doAccountFind : Sound s (doAccountFind p payload s).1 := by
  unfold doAccountFind
  split
  all_goals exact .refl s

theorem sound_doAccountClose : Sound s (doAccountClose p payload s).1 := by
  unfold doAccountClose
  dsimp only
  repeat' split
  any_goals exact .refl s
  exact (Sound.refl s).settle.consume

theorem sound_doAccountAdjust : Sound s (doAccountAdjust p payload s).1 := by
  unfold doAccountAdjust
  dsimp only
  repeat' split
  any_goals exact .refl s
  exact (Sound.refl s).setOpen.consume

theorem sound_doLossDeclare : Sound s (doLossDeclare p payload s).1 := by
  unfold doLossDeclare
  dsimp only
  repeat' split
  any_goals exact .refl s
  exact (Sound.refl s).lose

theorem sound_doSettlementTake : Sound s (doSettlementTake p payload s).1 := by
  unfold doSettlementTake
  repeat' split
  any_goals exact .refl s
  exact (Sound.refl s).setBuffer.resume

theorem sound_doIssue : Sound s (doIssue p payload s).1 := by
  unfold doIssue
  dsimp only
  repeat' split
  any_goals exact .refl s
  next hchannel hroom =>
    simp only [Bool.or_eq_true, Bool.not_eq_true', not_or, Bool.not_eq_false] at hchannel
    exact (Sound.refl s).acceptIssue hchannel.1 (Nat.lt_of_not_le hroom)

theorem sound_doSlotClear : Sound s (doSlotClear p payload s).1 := by
  unfold doSlotClear
  repeat' split
  any_goals exact .refl s
  exact (Sound.refl s).setSlot

theorem sound_doRackReset : Sound s (doRackReset p payload s).1 := by
  unfold doRackReset
  repeat' split
  any_goals exact .refl s
  exact (Sound.refl s).rackReset

theorem sound_doEnrollSlot : Sound s (doEnrollSlot p payload s).1 := by
  unfold doEnrollSlot
  dsimp only
  repeat' split
  any_goals exact .refl s
  exact (Sound.refl s).setReceiver

theorem Sound.afterFinding {s t : State} (h : Sound s t) {p : Port} {f : Finding} : Sound s (t.afterFinding p f) := by
  obtain hread | ⟨b, hread⟩ := afterFinding_cases t p f <;> rw [hread]
  · exact h
  · exact h.takeLatches

theorem sound_doRead : Sound s (doRead p payload s).1 := by
  unfold doRead
  split
  · exact (Sound.refl s).afterFinding
  · exact .refl s

theorem sound_doReadReserve : Sound s (doReadReserve p payload s).1 := by
  unfold doReadReserve State.reserve
  dsimp only
  repeat' split
  any_goals exact .refl s
  · exact (Sound.refl s).afterFinding
  · exact (Sound.refl s).afterFinding.setPort id

/-- Every command's own rule keeps the bounds and the agreement of the languages. -/
theorem sound_perform (name : CommandName) : Sound s (perform name p payload s).1 := by
  cases name with
  | status => exact (Sound.refl s).setPort (q := { s.port p with frameError := false }) id
  | reserveDrop => exact (Sound.refl s).dropReservation
  | profileRead => exact .refl s
  | read => exact sound_doRead s p payload
  | readReserve => exact sound_doReadReserve s p payload
  | langDefine => exact sound_doLangDefine s p payload
  | langRemove => exact sound_doLangRemove s p payload
  | chanMap => exact sound_doChanMap s p payload
  | chanUnmap => exact sound_doChanUnmap s p payload
  | chanMove => exact sound_doChanMove s p payload
  | chanFloorfill => exact sound_doChanFloorfill s p payload
  | boothConfig => exact sound_doBoothConfig s p payload
  | boothInput => exact sound_doBoothInput s p payload
  | seatForceTake => exact sound_doSeatForceTake s p payload
  | seatForceOff => exact sound_doSeatForceOff s p payload
  | tariffWrite => exact sound_doTariffWrite s p payload
  | filterWrite => exact sound_doFilterWrite s p payload
  | clockSet => exact sound_doClockSet s p payload
  | dayClose => exact sound_doDayClose s p payload
  | receiverEnroll => exact sound_doReceiverEnroll s p payload
  | receiverRetire => exact sound_doReceiverRetire s p payload
  | receiverService => exact sound_doReceiverService s p payload
  | reportClear => exact sound_doReportClear s p payload
  | profileWrite => exact sound_doProfileWrite s p payload
  | accountOpen => exact sound_doAccountOpen s p payload
  | accountFind => exact sound_doAccountFind s p payload
  | accountClose => exact sound_doAccountClose s p payload
  | issue => exact sound_doIssue s p payload
  | settlementTake => exact sound_doSettlementTake s p payload
  | slotClear => exact sound_doSlotClear s p payload
  | rackReset => exact sound_doRackReset s p payload
  | enrollSlot => exact sound_doEnrollSlot s p payload
  | accountAdjust => exact sound_doAccountAdjust s p payload
  | lossDeclare => exact sound_doLossDeclare s p payload

/-- The checks of R177 come before a command's own rule, and a command they refuse changes nothing. -/
theorem sound_answer (name : CommandName) : Sound s (s.answer name p payload (perform name p payload)).1 := by
  unfold State.answer
  split
  · exact .refl s
  split
  · exact .refl s
  split
  · exact .refl s
  · exact sound_perform s p payload name

theorem sound_perform_code (code : Byte) : Sound s (s.perform p code payload).1 := by
  unfold State.perform
  split
  · unfold State.answerUnknown
    split
    all_goals exact .refl s
  · exact sound_answer s p payload _

end Sys2Proof.Machine
end

section
/-!
PROOFS. The starts (R206): what the records read after a cold and after a warm start, and the working state of both.
-/
namespace Sys2Proof.Machine

-- Chains of writes

/-- A table written at the numbers of a list reads the written record there, and the old one elsewhere. -/
theorem tabGet_foldl_tabSet {α : Type} [DecidableEq α] (d : α) (v : Nat → α) (l : List Nat) (t : Tab α) (j : Nat) :
    tabGet d (l.foldl (fun t k => tabSet d t k (v k)) t) j = if j ∈ l then v j else tabGet d t j := by
  induction l generalizing t with
  | nil => simp
  | cons k rest ih =>
    rw [List.foldl_cons, ih, tabGet_tabSet]
    by_cases hr : j ∈ rest
    · simp [hr]
    · by_cases hk : j = k <;> simp [hr, hk]

theorem tabWf_foldl_tabSet {α : Type} [DecidableEq α] (d : α) (v : Nat → α) (l : List Nat) {t : Tab α}
    (h : tabWf d t = true) : tabWf d (l.foldl (fun t k => tabSet d t k (v k)) t) = true := by
  induction l generalizing t with
  | nil => exact h
  | cons k rest ih => exact ih (tabWf_tabSet d t k (v k) h)

/-- What each operation of a chain leaves, the chain leaves. -/
theorem foldl_keeps {α β : Type} {get : State → β} {f : State → α → State} (hf : ∀ s x, get (f s x) = get s)
    (l : List α) (s : State) : get (l.foldl f s) = get s := by
  induction l generalizing s with
  | nil => rfl
  | cons x rest ih => exact (ih (f s x)).trans (hf s x)

/-- A chain of operations, each of which writes the record of its own number from that record: every record is written
once if its number is in the chain. -/
theorem foldl_reads {α : Type} {get : State → Nat → α} {f : State → Nat → State} {g : Nat → α → α}
    (hf : ∀ s i j, get (f s i) j = if j = i then g i (get s i) else get s j) {l : List Nat} (hl : l.Nodup) (s : State)
    (j : Nat) : get (l.foldl f s) j = if j ∈ l then g j (get s j) else get s j := by
  induction l generalizing s with
  | nil => simp
  | cons i rest ih =>
    obtain ⟨hi, hrest⟩ := List.nodup_cons.1 hl
    rw [List.foldl_cons, ih hrest, hf]
    by_cases hj : j = i
    · subst hj
      simp [hi]
    · simp [hj]

variable (s : State)

-- What a change of the retained records leaves

theorem clearOn_hold (q : PortState) (r : RecordName) : (q.clearOn r).hold = q.hold := by
  rw [clearOn_eq]; rfl

theorem hold_setLanguage (i : Nat) (v : Language) (p : Port) :
    ((s.setLanguage i v).port p).hold = (s.port p).hold := by
  rw [port_setLanguage]; split <;> simp [clearOn_hold]

theorem hold_setChannel (i : Nat) (v : Channel) (p : Port) : ((s.setChannel i v).port p).hold = (s.port p).hold := by
  rw [port_setChannel]; split <;> simp [clearOn_hold]

theorem hold_setBooth (i : Nat) (v : Booth) (p : Port) : ((s.setBooth i v).port p).hold = (s.port p).hold := by
  rw [port_setBooth]; split <;> simp [clearOn_hold]

-- A warm start, record by record (R5, R24, R47, R127)

/-- What a warm start makes of one language whose channel it may free. -/
theorem warmChannel_cases (c : Nat) :
    (s.warmChannel c = s ∧ (s.channel c).state = .free) ∨
      (∃ t k, (s.channel c).state = .redirect t k ∧
        s.warmChannel c = s.setChannel c { s.channel c with state := .free }) ∨
      ∃ l, (s.channel c).state.language = some l ∧
        s.warmChannel c =
          if s.profile.channels < c then
            (s.setChannel c { s.channel c with state := .free }).setLanguage l { s.language l with channel := none }
          else s.setChannel c { s.channel c with state := .mapped l } := by
  unfold State.warmChannel
  cases hs : (s.channel c).state with
  | free => exact .inl ⟨rfl, rfl⟩
  | redirect t k => exact .inr (.inl ⟨t, k, rfl, rfl⟩)
  | mapped l => exact .inr (.inr ⟨l, rfl, by simp⟩)
  | live l => exact .inr (.inr ⟨l, rfl, by simp⟩)

theorem unwritten_warmChannel (c : Nat) : (s.warmChannel c).unwritten = s.unwritten := by
  rcases warmChannel_cases s c with ⟨h, -⟩ | ⟨t, k, -, h⟩ | ⟨l, -, h⟩
  · rw [h]
  · rw [h, unwritten_setChannel]
  · rw [h]
    split
    · rw [unwritten_setLanguage, unwritten_setChannel]
    · rw [unwritten_setChannel]

theorem hold_warmChannel (c : Nat) (p : Port) : ((s.warmChannel c).port p).hold = (s.port p).hold := by
  rcases warmChannel_cases s c with ⟨h, -⟩ | ⟨t, k, -, h⟩ | ⟨l, -, h⟩
  · rw [h]
  · rw [h, hold_setChannel]
  · rw [h]
    split
    · rw [hold_setLanguage, hold_setChannel]
    · rw [hold_setChannel]

/-- The profile in force with channel `j`, of which a warm start makes `warmChannel` by the channels fitted. -/
theorem channel_warmChannel (c j : Nat) :
    ((s.warmChannel c).profile.channels, (s.warmChannel c).channel j) =
      if j = c then (s.profile.channels, warmChannel s.profile.channels c (s.channel c))
      else (s.profile.channels, s.channel j) := by
  have hprofile : (s.warmChannel c).profile = s.profile := profile_of_unwritten (unwritten_warmChannel s c)
  rw [hprofile]
  have hchannel : (s.warmChannel c).channel j =
      if j = c then warmChannel s.profile.channels c (s.channel c) else s.channel j := by
    rcases warmChannel_cases s c with ⟨h, hs⟩ | ⟨t, k, hs, h⟩ | ⟨l, hs, h⟩
    · rw [h]
      by_cases hj : j = c <;> simp [hj, warmChannel, hs]
    · rw [h, channel_setChannel]
      simp only [warmChannel, hs]
    · have hw : warmChannel s.profile.channels c (s.channel c) =
          { s.channel c with state := if s.profile.channels < c then .free else .mapped l } := by
        unfold warmChannel
        cases hst : (s.channel c).state <;> simp_all [ChannelState.language]
      rw [h, hw]
      by_cases hc : s.profile.channels < c <;> simp [hc, channel_setChannel]
  rw [hchannel]
  split <;> rfl

/-- A language loses its channel if that channel is not fitted any more (R24). -/
theorem language_warmChannel (c l : Nat) :
    (s.warmChannel c).language l =
      if s.profile.channels < c ∧ (s.channel c).state.language = some l then { s.language l with channel := none }
      else s.language l := by
  rcases warmChannel_cases s c with ⟨h, hs⟩ | ⟨t, k, hs, h⟩ | ⟨k, hs, h⟩
  · rw [h, hs]; simp [ChannelState.language]
  · rw [h, hs]; simp [ChannelState.language]
  · rw [h, hs]
    by_cases hc : s.profile.channels < c
    · rw [if_pos hc, language_setLanguage]
      by_cases hl : l = k
      · simp [hl, hc]
      · have : ¬ k = l := fun e => hl e.symm
        simp [hl, this]
    · simp [hc]

@[simp] theorem warmChannel_booth (c b : Nat) : (s.warmChannel c).booth b = s.booth b := by
  rcases warmChannel_cases s c with ⟨h, -⟩ | ⟨t, k, -, h⟩ | ⟨l, -, h⟩
  · rw [h]
  · rw [h, setChannel_booth]
  · rw [h]; split <;> simp

@[simp] theorem warmChannel_receiver (c i : Nat) : (s.warmChannel c).receiver i = s.receiver i := by
  rcases warmChannel_cases s c with ⟨h, -⟩ | ⟨t, k, -, h⟩ | ⟨l, -, h⟩
  · rw [h]
  · rw [h, setChannel_receiver]
  · rw [h]; split <;> simp

@[simp] theorem warmChannel_account (c i : Nat) : (s.warmChannel c).account i = s.account i := by
  rcases warmChannel_cases s c with ⟨h, -⟩ | ⟨t, k, -, h⟩ | ⟨l, -, h⟩
  · rw [h]
  · rw [h, setChannel_account]
  · rw [h]; split <;> simp

/-- The language `l` loses its channel in a warm start: the channel is not fitted any more (R24). -/
def State.loses (l : Nat) : Prop :=
  ∃ c, 1 ≤ c ∧ c ≤ 24 ∧ s.profile.channels < c ∧ (s.channel c).state.language = some l

theorem language_warmChannels {cs : List Nat} (hcs : cs.Nodup) (l : Nat) :
    (cs.foldl State.warmChannel s).language l =
      { s.language l with
        channel :=
          if ∃ c ∈ cs, s.profile.channels < c ∧ (s.channel c).state.language = some l then none
          else (s.language l).channel } := by
  induction cs generalizing s with
  | nil => simp
  | cons c rest ih =>
    obtain ⟨hc, hrest⟩ := List.nodup_cons.1 hcs
    have hprofile : (s.warmChannel c).profile = s.profile := profile_of_unwritten (unwritten_warmChannel s c)
    have hstate : ∀ x ∈ rest, (s.warmChannel c).channel x = s.channel x := by
      intro x hx
      have hne : x ≠ c := fun e => hc (e ▸ hx)
      have hboth := channel_warmChannel s c x
      rw [if_neg hne] at hboth
      exact congrArg Prod.snd hboth
    have hlater : (∃ x ∈ rest, s.profile.channels < x ∧ ((s.warmChannel c).channel x).state.language = some l) ↔
        ∃ x ∈ rest, s.profile.channels < x ∧ (s.channel x).state.language = some l :=
      exists_congr fun x => and_congr_right fun hx => by rw [hstate x hx]
    rw [List.foldl_cons, ih (s.warmChannel c) hrest, hprofile, language_warmChannel]
    simp only [hlater, List.exists_mem_cons_iff]
    by_cases hthis : s.profile.channels < c ∧ (s.channel c).state.language = some l
    · simp [hthis]
    · simp only [hthis, false_or, if_false]

/-- The listeners that language `l` gives up, one for each PENDING receiver of a list of records (R127). -/
def pendingOn (l : Nat) (pool : List (Nat × Option Receiver)) : Nat :=
  pool.countP fun e => e.2.any fun v =>
    match v.state with
    | .pending _ k _ => k = l
    | .stock | .issued _ _ _ _ | .lost _ _ | .service => false

theorem language_warmListeners (pool : List (Nat × Option Receiver)) (l : Nat) :
    (pool.foldl (fun t e => t.warmListener e.2) s).language l =
      { s.language l with listeners := (s.language l).listeners - pendingOn l pool } := by
  induction pool generalizing s with
  | nil => simp [pendingOn]
  | cons e rest ih =>
    obtain ⟨i, v⟩ := e
    rw [List.foldl_cons, ih]
    cases v with
    | none => simp [State.warmListener, pendingOn]
    | some w =>
      cases hw : w.state with
      | pending r k d =>
        by_cases hk : l = k
        · subst hk
          simp only [State.warmListener, hw, State.dropListener, language_setLanguage_same, pendingOn,
            List.countP_cons, Option.any_some, decide_true, if_true]
          congr 1
          omega
        · have hk' : ¬ k = l := fun e => hk e.symm
          simp [State.warmListener, hw, State.dropListener, language_setLanguage, hk, hk', pendingOn]
      | stock | issued _ _ _ _ | lost _ _ | service => simp [State.warmListener, hw, pendingOn]

theorem warmListener_cases (v : Option Receiver) : s.warmListener v = s ∨ ∃ l, s.warmListener v = s.dropListener l := by
  unfold State.warmListener
  split
  · exact .inl rfl
  · split
    · exact .inr ⟨_, rfl⟩
    all_goals exact .inl rfl

theorem unwritten_warmListener (v : Option Receiver) : (s.warmListener v).unwritten = s.unwritten := by
  rcases warmListener_cases s v with h | ⟨l, h⟩ <;> rw [h]
  exact unwritten_setLanguage s l _

theorem hold_warmListener (v : Option Receiver) (p : Port) : ((s.warmListener v).port p).hold = (s.port p).hold := by
  rcases warmListener_cases s v with h | ⟨l, h⟩ <;> rw [h]
  exact hold_setLanguage s l _ p

/-- The records of the pool and the accounts brought into line by a warm start (R127, R149). -/
def State.warmPool : State :=
  let issues := s.receivers.foldl (fun t e => t.warmListener e.2) s
  { issues with
    receivers := issues.receivers.map fun e => (e.1, e.2.map Receiver.warm)
    accounts := issues.accounts.map fun e => (e.1, e.2.warm) }

/-- The state in which a warm start comes to the channels. -/
def State.warmOwners : State := (List.range 32).foldl State.warmLanguage s.warmPool

/-- The state in which a warm start comes to the booths. -/
def State.warmChannels : State := (List.range' 1 24).foldl State.warmChannel s.warmOwners

theorem warmRecords_eq : s.warmRecords = (List.range' 1 16).foldl State.warmBooth s.warmChannels := rfl

theorem unwritten_warmPool : s.warmPool.unwritten = s.unwritten := by
  have hissues : (s.receivers.foldl (fun t e => t.warmListener e.2) s).unwritten = s.unwritten :=
    foldl_keeps (get := State.unwritten) (fun t (e : Nat × Option Receiver) => unwritten_warmListener t e.2) _ s
  exact hissues

theorem warmPool_channel (c : Nat) : s.warmPool.channel c = s.channel c := by
  have hissues : (s.receivers.foldl (fun t e => t.warmListener e.2) s).channel c = s.channel c := by
    refine foldl_keeps (get := fun t => t.channel c) (fun t (e : Nat × Option Receiver) => ?_) _ s
    rcases warmListener_cases t e.2 with h | ⟨l, h⟩ <;> simp [h, State.dropListener]
  exact hissues

theorem warmPool_booth (b : Nat) : s.warmPool.booth b = s.booth b := by
  have hissues : (s.receivers.foldl (fun t e => t.warmListener e.2) s).booth b = s.booth b := by
    refine foldl_keeps (get := fun t => t.booth b) (fun t (e : Nat × Option Receiver) => ?_) _ s
    rcases warmListener_cases t e.2 with h | ⟨l, h⟩ <;> simp [h, State.dropListener]
  exact hissues

theorem warmPool_receiver (i : Nat) : s.warmPool.receiver i = (s.receiver i).map Receiver.warm := by
  have hissues : (s.receivers.foldl (fun t e => t.warmListener e.2) s).receivers = s.receivers := by
    refine foldl_keeps (get := State.receivers) (fun t (e : Nat × Option Receiver) => ?_) _ s
    rcases warmListener_cases t e.2 with h | ⟨l, h⟩ <;> simp [h, State.dropListener]
  unfold State.receiver State.warmPool
  dsimp only
  rw [hissues]
  exact tabGet_map none s.receivers (Option.map Receiver.warm) rfl i

theorem warmPool_account (i : Nat) : s.warmPool.account i = (s.account i).warm := by
  have hissues : (s.receivers.foldl (fun t e => t.warmListener e.2) s).accounts = s.accounts := by
    refine foldl_keeps (get := State.accounts) (fun t (e : Nat × Option Receiver) => ?_) _ s
    rcases warmListener_cases t e.2 with h | ⟨l, h⟩ <;> simp [h, State.dropListener]
  unfold State.account State.warmPool
  dsimp only
  rw [hissues]
  exact tabGet_map .initial s.accounts Account.warm rfl i

theorem warmPool_language (l : Nat) :
    s.warmPool.language l =
      { s.language l with listeners := (s.language l).listeners - pendingOn l s.receivers } :=
  language_warmListeners s s.receivers l

/-- What the warm start of the channels, the languages and the booths leaves, a warm start leaves of the pool. -/
theorem warmRecords_keeps {α : Type} (get : State → α) (hl : ∀ t l, get (State.warmLanguage t l) = get t)
    (hc : ∀ t c, get (State.warmChannel t c) = get t) (hb : ∀ t b, get (State.warmBooth t b) = get t) :
    get s.warmRecords = get s.warmPool := by
  rw [warmRecords_eq, foldl_keeps hb, State.warmChannels, foldl_keeps hc, State.warmOwners, foldl_keeps hl]

theorem unwritten_warmRecords : s.warmRecords.unwritten = s.unwritten :=
  (warmRecords_keeps s State.unwritten (fun t l => unwritten_setLanguage t l _) unwritten_warmChannel
    fun t b => unwritten_setBooth t b _).trans (unwritten_warmPool s)

theorem hold_warmRecords (p : Port) : (s.warmRecords.port p).hold = (s.port p).hold := by
  refine (warmRecords_keeps s (fun t => (t.port p).hold) (fun t l => hold_setLanguage t l _ p)
    (fun t c => hold_warmChannel t c p) fun t b => hold_setBooth t b _ p).trans ?_
  have hissues : ((s.receivers.foldl (fun t e => t.warmListener e.2) s).port p).hold = (s.port p).hold :=
    foldl_keeps (get := fun t => (t.port p).hold)
      (fun t (e : Nat × Option Receiver) => hold_warmListener t e.2 p) _ s
  cases p <;> exact hissues

theorem warmRecords_profile : s.warmRecords.profile = s.profile := profile_of_unwritten (unwritten_warmRecords s)

theorem warmRecords_receiver (i : Nat) : s.warmRecords.receiver i = (s.receiver i).map Receiver.warm :=
  (warmRecords_keeps s (fun t => t.receiver i) (fun t l => setLanguage_receiver t l _ i)
    (fun t c => warmChannel_receiver t c i) fun t b => setBooth_receiver t b _ i).trans
    (warmPool_receiver s i)

theorem warmRecords_account (i : Nat) : s.warmRecords.account i = (s.account i).warm :=
  (warmRecords_keeps s (fun t => t.account i) (fun t l => setLanguage_account t l _ i)
    (fun t c => warmChannel_account t c i) fun t b => setBooth_account t b _ i).trans
    (warmPool_account s i)

theorem warmOwners_profile : s.warmOwners.profile = s.profile :=
  (foldl_keeps (get := State.profile) (fun t l => setLanguage_profile t l _) _ _).trans
    (profile_of_unwritten (unwritten_warmPool s))

theorem warmOwners_channel (c : Nat) : s.warmOwners.channel c = s.channel c :=
  (foldl_keeps (get := fun t => t.channel c) (fun t l => setLanguage_channel t l _ c) _ _).trans (warmPool_channel s c)

theorem warmOwners_language (l : Nat) :
    s.warmOwners.language l =
      { s.language l with
        owner := if l ≤ 31 then none else (s.language l).owner
        listeners := (s.language l).listeners - pendingOn l s.receivers } := by
  refine (foldl_reads (get := State.language) (g := fun _ v => { v with owner := none })
    (fun t i j => language_setLanguage t i j _) List.nodup_range s.warmPool l).trans ?_
  rw [warmPool_language]
  by_cases hl : l ≤ 31
  · simp [hl, Nat.lt_succ_of_le hl]
  · have : ¬ l < 32 := by omega
    simp [hl, this]

theorem warmRecords_channel (c : Nat) :
    s.warmRecords.channel c =
      if 1 ≤ c ∧ c ≤ 24 then warmChannel s.profile.channels c (s.channel c) else s.channel c := by
  have hall := foldl_reads (get := fun t c => (t.profile.channels, t.channel c))
    (g := fun i v => (v.1, warmChannel v.1 i v.2)) channel_warmChannel (List.nodup_range' (s := 1) (n := 24))
    s.warmOwners c
  have hread : s.warmChannels.channel c =
      if c ∈ List.range' 1 24 then warmChannel s.profile.channels c (s.channel c) else s.channel c := by
    have hsnd := congrArg Prod.snd hall
    dsimp only at hsnd
    rw [warmOwners_profile, warmOwners_channel, apply_ite Prod.snd] at hsnd
    exact hsnd
  rw [warmRecords_eq, foldl_keeps (get := fun t => t.channel c) (f := State.warmBooth)
    fun t b => setBooth_channel t b _ c, hread]
  simp only [List.mem_range'_1]
  by_cases hc : 1 ≤ c ∧ c ≤ 24
  · rw [if_pos hc, if_pos (by omega)]
  · rw [if_neg hc, if_neg (by omega)]

/-- A language after a warm start (R5, R24, R127). -/
theorem warmRecords_language (l : Nat) [Decidable (s.loses l)] :
    s.warmRecords.language l =
      { s.language l with
        owner := if l ≤ 31 then none else (s.language l).owner
        channel := if s.loses l then none else (s.language l).channel
        listeners := (s.language l).listeners - pendingOn l s.receivers } := by
  have hloses : (∃ c ∈ List.range' 1 24, s.warmOwners.profile.channels < c ∧
      (s.warmOwners.channel c).state.language = some l) ↔ s.loses l := by
    simp only [List.mem_range'_1, warmOwners_channel, warmOwners_profile, State.loses, and_assoc]
    exact exists_congr fun c => and_congr_right fun _ => and_congr_left fun _ => by omega
  rw [warmRecords_eq, foldl_keeps (get := fun t => t.language l) (f := State.warmBooth) fun t b => setBooth_language t b _ l,
   
    State.warmChannels, language_warmChannels s.warmOwners List.nodup_range', warmOwners_language]
  simp only [hloses]

/-- A booth after a warm start (R47, R86). -/
theorem warmRecords_booth (b : Nat) :
    s.warmRecords.booth b = if 1 ≤ b ∧ b ≤ 16 then (s.booth b).warm else s.booth b := by
  have hchannels : s.warmChannels.booth b = s.booth b := by
    rw [State.warmChannels, foldl_keeps (get := fun t => t.booth b) fun t c => warmChannel_booth t c b, State.warmOwners,
      foldl_keeps (get := fun t => t.booth b) (f := State.warmLanguage) fun t l => setLanguage_booth t l _ b, warmPool_booth]
  rw [warmRecords_eq, foldl_reads (get := State.booth) (f := State.warmBooth) (g := fun _ v => v.warm)
    (fun t i j => booth_setBooth t i j _) List.nodup_range', hchannels]
  simp only [List.mem_range'_1]
  by_cases hb : 1 ≤ b ∧ b ≤ 16
  · rw [if_pos hb, if_pos (by omega)]
  · rw [if_neg hb, if_neg (by omega)]

end Sys2Proof.Machine
end

section
/-!
PROOFS. A hall start (R206): it keeps the bounds and the agreement of the languages, and what it leaves of the state.
-/
namespace Sys2Proof.Machine

variable (s : State)

-- The profile in force (R203)

theorem readProfile_inRange : s.readProfile.ProfileInRange := by
  unfold State.ProfileInRange State.readProfile profileInForce
  split
  · simp [Profile.default]
  next fields hfields =>
    unfold storedFields profileFields at hfields
    split at hfields
    · split at hfields
      · obtain rfl := Option.some.inj hfields
        simp only [clampFields, profileRanges, List.zipWith_cons_cons, List.zipWith_nil_left, profileOf, clampField]
        omega
      · exact nomatch hfields
    · exact nomatch hfields

-- The records after a start keep the bounds

theorem warm_initial_iff (v : Account) : v.warm = .initial ↔ v = .initial := by
  obtain ⟨g, a⟩ := v
  cases a <;> simp [Account.warm, Account.initial]

/-- The records of the pool and of the accounts are mapped, so that their tables stay canonical. -/
theorem sized_warmPool : Sized s s.warmPool := by
  have hissues : Sized s (s.receivers.foldl (fun t e => t.warmListener e.2) s) := by
    refine Sized.foldl (.refl s) _ fun t e ht => ?_
    rcases warmListener_cases t e.2 with h | ⟨l, h⟩ <;> rw [h]
    · exact ht
    · exact ht.setLanguage
  refine hissues.trans ⟨rfl, fun h p => ?_, fun h r => ?_, id, fun h hm => ?_, id, fun h b => h b⟩
  · cases p
    exacts [h .ops, h .deskA, h .deskB]
  · cases r
    exacts [h .a, h .b]
  · obtain ⟨hl, hc, hb, hr, ha, hk, hf, hg⟩ := h hm
    exact ⟨hl, hc, hb, tabWf_map none _ _ (fun v hv => by simpa using hv) hr,
      tabWf_map .initial _ _ (fun v hv => mt (warm_initial_iff v).1 hv) ha, hk, hf, hg⟩

theorem Sized.warmChannel {s t : State} (h : Sized s t) (c : Nat) : Sized s (t.warmChannel c) := by
  rcases warmChannel_cases t c with ⟨hc, -⟩ | ⟨_, _, -, hc⟩ | ⟨l, -, hc⟩ <;> rw [hc]
  · exact h
  · exact h.setChannel
  · split
    · exact h.setChannel.setLanguage
    · exact h.setChannel

theorem sized_warmRecords : Sized s s.warmRecords :=
  (((sized_warmPool s).foldl _ fun _ _ h => h.setLanguage).foldl _ fun _ c h => h.warmChannel c).foldl _
    fun _ _ h => h.writeBooth fun _ => ⟨List.Pairwise.nil, List.not_mem_nil⟩

/-- The records a hall start leaves (R206). -/
def State.startRecords : State :=
  match s.nextKind with
  | .cold => s.readProfile.coldRecords
  | .warm => s.readProfile.warmRecords

theorem coldRecords_channel (c : Nat) :
    s.coldRecords.channel c = if 1 ≤ c ∧ c ≤ 24 then ⟨.free, s.profile.floorFill, 0⟩ else .initial := by
  refine (tabGet_foldl_tabSet Channel.initial (fun _ => ⟨.free, s.profile.floorFill, 0⟩) _ [] c).trans ?_
  simp only [List.mem_range'_1, tabGet]
  by_cases hc : 1 ≤ c ∧ c ≤ 24
  · rw [if_pos hc, if_pos (by omega)]
  · rw [if_neg hc, if_neg (by omega)]

theorem coldRecords_booth (b : Nat) :
    s.coldRecords.booth b =
      if 1 ≤ b ∧ b ≤ 16 then { Booth.initial with config := .initial s.profile.turnLimit } else .initial := by
  refine (tabGet_foldl_tabSet Booth.initial (fun _ => { Booth.initial with config := .initial s.profile.turnLimit })
    _ [] b).trans ?_
  simp only [List.mem_range'_1, tabGet]
  by_cases hb : 1 ≤ b ∧ b ≤ 16
  · rw [if_pos hb, if_pos (by omega)]
  · rw [if_neg hb, if_neg (by omega)]

theorem coldRecords_takers (b : Nat) : (s.coldRecords.booth b).takers = [] := by
  rw [coldRecords_booth]; split <;> rfl

/-- After a cold start no language is defined, bound or named (R5, R24, R25). -/
theorem coldRecords_agree :
    s.coldRecords.BindingsAgree ∧
      (∀ l, if (s.coldRecords.language l).defined then l ≤ 31 else s.coldRecords.language l = .undefined) ∧
      (∀ b l, (s.coldRecords.booth b).config.names l → 1 ≤ b ∧ b ≤ 16 ∧ (s.coldRecords.language l).defined = true) := by
  have hl : ∀ l, s.coldRecords.language l = .undefined := fun _ => rfl
  refine ⟨⟨fun l c hc => ?_, fun c l hc => ?_⟩, fun l => ?_, fun b l hb => ?_⟩
  · rw [hl] at hc
    exact nomatch hc
  · rw [coldRecords_channel] at hc
    split at hc <;> exact nomatch hc
  · rw [hl]; rfl
  · rw [coldRecords_booth] at hb
    split at hb <;> simp [BoothConfig.names, BoothConfig.initial, Booth.initial] at hb

/-- After a warm start the languages agree as they did: no language has an owner, every bound channel is MAPPED, and a
language whose channel is not fitted any more has lost it (R5, R24). -/
theorem warmRecords_agree {s : State} (hm : s.marker = true) (h : s.LanguagesAgree) :
    s.warmRecords.LanguagesAgree := fun _ => by
  classical
  obtain ⟨⟨hlc, hcl⟩, hdefs, hnames⟩ := h hm
  have hbound : ∀ {c l o}, (s.channel c).state = boundState l o →
      warmChannel s.profile.channels c (s.channel c) =
        { s.channel c with state := if s.profile.channels < c then .free else .mapped l } := by
    intro c l o hc
    cases o <;> simp [warmChannel, hc, boundState]
  refine ⟨⟨fun l c hc => ?_, fun c l hc => ?_⟩, fun l => ?_, fun b l hb => ?_⟩
  · rw [warmRecords_language] at hc ⊢
    dsimp only at hc ⊢
    obtain ⟨hkept, hc⟩ : ¬ s.loses l ∧ (s.language l).channel = some c := by
      split at hc
      · exact nomatch hc
      next hkept => exact ⟨hkept, hc⟩
    obtain ⟨h1, h24, hs⟩ := hlc l c hc
    have hfitted : ¬ s.profile.channels < c := fun hlt => hkept ⟨c, h1, h24, hlt, by rw [hs, boundState_language]⟩
    have hl := agree_defined_le h hm (agree_channel_defined h hm hc)
    refine ⟨h1, h24, ?_⟩
    rw [warmRecords_channel, if_pos ⟨h1, h24⟩, hbound hs, if_neg hfitted, if_pos hl]
    rfl
  · rw [warmRecords_channel] at hc
    rw [warmRecords_language]
    dsimp only
    by_cases hfree : (s.channel c).state.language = none
    · have hnone : (warmChannel s.profile.channels c (s.channel c)).state.language = none := by
        unfold warmChannel
        cases hs : (s.channel c).state <;> simp_all [ChannelState.language]
      split at hc
      · rw [hnone] at hc; exact nomatch hc
      · rw [hfree] at hc; exact nomatch hc
    · obtain ⟨k, hk⟩ := Option.ne_none_iff_exists'.1 hfree
      obtain ⟨hkc, h1, h24, hs⟩ := agree_of_language h hm hk
      rw [if_pos ⟨h1, h24⟩, hbound hs] at hc
      dsimp only at hc
      split at hc
      · exact nomatch hc
      next hfitted =>
        obtain rfl : k = l := Option.some.inj hc
        rw [if_neg, hkc]
        rintro ⟨x, -, -, hx, hxk⟩
        obtain rfl : x = c := Option.some.inj ((agree_of_language h hm hxk).1.symm.trans hkc)
        exact hfitted hx
  · rw [warmRecords_language]
    dsimp only
    have hl := hdefs l
    split
    next hd => rwa [if_pos hd] at hl
    next hd =>
      rw [if_neg hd] at hl
      rw [hl]
      simp [Language.undefined]
  · have hconfig : (s.warmRecords.booth b).config = (s.booth b).config := by
      rw [warmRecords_booth]
      split <;> rfl
    rw [hconfig] at hb
    obtain ⟨h1, h16, hd⟩ := hnames b l hb
    refine ⟨h1, h16, ?_⟩
    rw [warmRecords_language]
    exact hd

-- The working state of a hall start

theorem startRack_eq (r : Rack) : ∃ a b, s.startRack r = { s with rackA := a, rackB := b } := by
  obtain ⟨bus, due, h⟩ := kickRack_eq (s.setRack r ⟨[], [], s.fittedSlots r, .idle⟩) r
  unfold State.startRack
  rw [h]
  cases r
  · exact ⟨_, s.rackB, rfl⟩
  · exact ⟨s.rackA, _, rfl⟩

theorem tellSuspect_eq : ∃ q, s.tellSuspect = { s with opsPort := q } := by
  unfold State.tellSuspect
  split
  · exact ⟨s.opsPort, rfl⟩
  · exact ⟨_, rfl⟩

/-- The part as a hall start sets it to work, before its ports, its feed link and its rack engines begin (R206). -/
def State.startWorking : State :=
  { s.startRecords.quiet with
    run := .hall, startKind := s.nextKind, marker := true, suspect := true, second := 0 }

theorem hallStart_eq :
    s.hallStart = ((s.startWorking.tellSuspect.feedStart).startRack .a).startRack .b := rfl

/-- What a hall start leaves: the records of the start, and the part at work on them. -/
theorem hallStart_frame : ∃ q a b f, s.hallStart =
    { s.startWorking with opsPort := q, rackA := a, rackB := b, feed := f } := by
  obtain ⟨q, hq⟩ := tellSuspect_eq s.startWorking
  obtain ⟨a, b, hab⟩ := startRack_eq s.startWorking.tellSuspect.feedStart .a
  obtain ⟨a', b', hab'⟩ := startRack_eq (s.startWorking.tellSuspect.feedStart.startRack .a) .b
  refine ⟨q, a', b', s.startWorking.tellSuspect.feedStart.feed, ?_⟩
  rw [hallStart_eq, hab', hab, hq]
  rfl

-- What the records and the working state read after a hall start

theorem startRecords_of_warm {s : State} (hm : s.marker = true) : s.startRecords = s.readProfile.warmRecords := by
  simp [State.startRecords, State.nextKind, hm]

theorem startRecords_of_cold {s : State} (hm : s.marker = false) : s.startRecords = s.readProfile.coldRecords := by
  simp [State.startRecords, State.nextKind, hm]

theorem startRecords_hold (p : Port) : (s.startRecords.port p).hold = (s.port p).hold := by
  cases hm : s.marker with
  | true =>
    rw [startRecords_of_warm hm, hold_warmRecords]
    cases p <;> rfl
  | false =>
    rw [startRecords_of_cold hm]
    cases p <;> rfl

theorem startRecords_profile : s.startRecords.profile = (profileInForce s.store).1 := by
  cases hm : s.marker with
  | true => rw [startRecords_of_warm hm, warmRecords_profile]; rfl
  | false => rw [startRecords_of_cold hm]; rfl

theorem startRecords_clamped : s.startRecords.clamped = (profileInForce s.store).2 := by
  cases hm : s.marker with
  | true => rw [startRecords_of_warm hm]; exact clamped_of_unwritten (unwritten_warmRecords s.readProfile)
  | false => rw [startRecords_of_cold hm]; rfl

theorem startRecords_pending : s.startRecords.pending = s.pending := by
  cases hm : s.marker with
  | true => rw [startRecords_of_warm hm]; exact (pending_of_unwritten (unwritten_warmRecords s.readProfile)).trans rfl
  | false => rw [startRecords_of_cold hm]; rfl

theorem startRecords_store : s.startRecords.store = s.store := by
  cases hm : s.marker with
  | true => rw [startRecords_of_warm hm]; exact (store_of_unwritten (unwritten_warmRecords s.readProfile)).trans rfl
  | false => rw [startRecords_of_cold hm]; rfl

theorem startWorking_port (p : Port) : s.startWorking.port p = .start (s.port p).hold := by
  rw [← startRecords_hold]
  cases p <;> rfl

/-- The notices a start forms: CLOCK_SUSPECT of a warm one (R202). -/
def State.startNotices : List Notice :=
  match s.nextKind with
  | .cold => []
  | .warm => [.clockSuspect s.startRecords.now .warm]

theorem told_tellSuspect : Told s.startWorking s.startWorking.tellSuspect [] (toOps s.startNotices) := by
  unfold State.tellSuspect State.startNotices
  have hkind : s.startWorking.startKind = s.nextKind := rfl
  rw [hkind]
  cases s.nextKind with
  | cold => exact (Told.refl _).congr fun p => by cases p <;> rfl
  | warm => exact told_notifyOps _ _

theorem startRack_port (r : Rack) (p : Port) : (s.startRack r).port p = s.port p := by
  simp [State.startRack]

theorem hallStart_port (p : Port) :
    s.hallStart.port p = (PortState.start (s.port p).hold).told (toOps s.startNotices p) := by
  have htold := told_tellSuspect s p
  rw [startWorking_port] at htold
  rw [hallStart_eq, startRack_port, startRack_port]
  cases p <;> exact htold

/-- A rack engine after a start (R112, R127): its first scan round has begun, with the PROBE of slot 0 in flight. -/
theorem startRack_rack (r : Rack) (hslots : 1 ≤ s.profile.slots) :
    (s.startRack r).rack r =
      if s.rackFitted r then ⟨[], [], (List.range s.profile.slots).drop 1, .busy (.probe 0)⟩ else ⟨[], [], [], .idle⟩ := by
  obtain ⟨k, hk⟩ := Nat.exists_eq_add_of_le' hslots
  unfold State.startRack State.kickRack
  cases hf : s.rackFitted r with
  | false => simp [hf, State.fittedSlots]
  | true =>
    have harrivals : (s.setRack r ⟨[], [], s.fittedSlots r, .idle⟩).arrivalWork r = none := by
      unfold State.arrivalWork
      rw [List.findSome?_eq_none_iff]
      intro n _
      simp [slot_setRack, tabGet, Slot.initial]
    simp [hf, State.chooseWork, harrivals, State.issueWork]
    simp [hf, State.fittedSlots, hk, List.range_eq_range', List.range'_succ]

theorem startRack_rack_ne {r x : Rack} (hx : x ≠ r) : (s.startRack r).rack x = s.rack x := by
  unfold State.startRack
  rw [kickRack_rack_ne _ hx, rack_setRack, if_neg hx]

theorem startRack_profile (r : Rack) : (s.startRack r).profile = s.profile := by
  obtain ⟨a, b, h⟩ := startRack_eq s r
  rw [h]

theorem hallStart_profile : s.hallStart.profile = (profileInForce s.store).1 := by
  obtain ⟨q, a, b, f, h⟩ := hallStart_frame s
  rw [h]
  exact startRecords_profile s

theorem hallStart_clamped : s.hallStart.clamped = (profileInForce s.store).2 := by
  obtain ⟨q, a, b, f, h⟩ := hallStart_frame s
  rw [h]
  exact startRecords_clamped s

theorem hallStart_pending : s.hallStart.pending = s.pending := by
  obtain ⟨q, a, b, f, h⟩ := hallStart_frame s
  rw [h]
  exact startRecords_pending s

theorem hallStart_store : s.hallStart.store = s.store := by
  obtain ⟨q, a, b, f, h⟩ := hallStart_frame s
  rw [h]
  exact startRecords_store s

/-- The retained memory after a hall start is that of the records, and the part is at work. -/
theorem hallStart_records :
    (s.hallStart.languages = s.startRecords.languages ∧ s.hallStart.channels = s.startRecords.channels ∧
      s.hallStart.booths = s.startRecords.booths ∧ s.hallStart.receivers = s.startRecords.receivers ∧
      s.hallStart.accounts = s.startRecords.accounts ∧ s.hallStart.tariffs = s.startRecords.tariffs ∧
      s.hallStart.filters = s.startRecords.filters ∧ s.hallStart.reports = s.startRecords.reports) ∧
    (s.hallStart.bufferA = s.startRecords.bufferA ∧ s.hallStart.bufferB = s.startRecords.bufferB ∧
      s.hallStart.minute = s.startRecords.minute ∧ s.hallStart.day = s.startRecords.day) ∧
    s.hallStart.run = .hall ∧ s.hallStart.startKind = s.nextKind ∧ s.hallStart.marker = true ∧
      s.hallStart.suspect = true ∧ s.hallStart.second = 0 ∧ s.hallStart.line = none := by
  obtain ⟨q, a, b, f, h⟩ := hallStart_frame s
  rw [h]
  exact ⟨⟨rfl, rfl, rfl, rfl, rfl, rfl, rfl, rfl⟩, ⟨rfl, rfl, rfl, rfl⟩, rfl, rfl, rfl, rfl, rfl, rfl⟩

theorem hallStart_language (l : Nat) : s.hallStart.language l = s.startRecords.language l := by
  obtain ⟨q, a, b, f, h⟩ := hallStart_frame s
  rw [h]; rfl

theorem hallStart_channel (c : Nat) : s.hallStart.channel c = s.startRecords.channel c := by
  obtain ⟨q, a, b, f, h⟩ := hallStart_frame s
  rw [h]; rfl

theorem hallStart_booth (n : Nat) : s.hallStart.booth n = s.startRecords.booth n := by
  obtain ⟨q, a, b, f, h⟩ := hallStart_frame s
  rw [h]; rfl

theorem hallStart_inRange : s.hallStart.ProfileInRange := by
  have h := readProfile_inRange s
  unfold State.ProfileInRange at h ⊢
  rw [hallStart_profile]
  exact h

theorem hallStart_rack (r : Rack) :
    s.hallStart.rack r =
      if s.hallStart.rackFitted r then ⟨[], [], (List.range s.hallStart.profile.slots).drop 1, .busy (.probe 0)⟩
      else ⟨[], [], [], .idle⟩ := by
  obtain ⟨-, -, -, -, -, -, -, -, hslots, -⟩ := hallStart_inRange s
  have hprofile : ∀ t : State, t.profile = s.hallStart.profile →
      (t.startRack r).rack r =
        if s.hallStart.rackFitted r then ⟨[], [], (List.range s.hallStart.profile.slots).drop 1, .busy (.probe 0)⟩
        else ⟨[], [], [], .idle⟩ := by
    intro t ht
    rw [startRack_rack t r (by rw [ht]; omega), ht]
    have hfitted : t.rackFitted r = s.hallStart.rackFitted r := by unfold State.rackFitted; rw [ht]
    rw [hfitted]
  rw [hallStart_eq] at hprofile ⊢
  cases r with
  | a =>
    rw [startRack_rack_ne _ (by decide)]
    exact hprofile _ (by rw [startRack_profile, startRack_profile])
  | b => exact hprofile _ (by rw [startRack_profile _ .b])

theorem startRack_feed (r : Rack) : (s.startRack r).feed = s.feed := by
  obtain ⟨a, b, h⟩ := startRack_eq s r
  rw [h]

theorem startRack_feedTable (r : Rack) : (s.startRack r).feedTable = s.feedTable := by
  obtain ⟨a, b, h⟩ := startRack_eq s r
  rw [h]; rfl

/-- A start sends the feed table (R102). -/
theorem hallStart_feed : s.hallStart.feed = ⟨s.hallStart.feedTable, false, true⟩ := by
  rw [hallStart_eq, startRack_feed, startRack_feed, startRack_feedTable, startRack_feedTable]
  rfl

theorem PortState.Within.told {q : PortState} (h : q.Within) (ns : List Notice) : (q.told ns).Within := by
  unfold PortState.told
  induction ns generalizing q with
  | nil => exact h
  | cons n rest ih => exact ih (h.post n)

/-- A hall start keeps the bounds: its ports, rack engines and profile are new, and its records keep them. -/
theorem sized_hallStart : Sized s s.hallStart where
  pending := hallStart_pending s
  ports _ p := hallStart_port s p ▸ (PortState.Within.start _).told _
  queues _ r := by
    rw [hallStart_rack]
    split <;> exact Nat.zero_le _
  clock h := by
    obtain ⟨-, ⟨-, -, hminute, hday⟩, -, -, -, -, hsecond, -⟩ := hallStart_records s
    unfold State.ClockInRange
    rw [hsecond, hminute, hday]
    refine ⟨by decide, fun _ => ?_⟩
    cases hm : s.marker with
    | true =>
      rw [startRecords_of_warm hm]
      exact ((sized_warmRecords s.readProfile).clock h).2
        ((marker_of_unwritten (unwritten_warmRecords s.readProfile)).trans hm)
    | false =>
      rw [startRecords_of_cold hm]
      exact ⟨Nat.zero_le _, Nat.zero_le _⟩
  tables h _ := by
    obtain ⟨⟨hl, hc, hb, hr, ha, hk, hf, hg⟩, -⟩ := hallStart_records s
    rw [hl, hc, hb, hr, ha, hk, hf, hg]
    cases hm : s.marker with
    | true =>
      rw [startRecords_of_warm hm]
      exact (sized_warmRecords s.readProfile).tables h
        ((marker_of_unwritten (unwritten_warmRecords s.readProfile)).trans hm)
    | false =>
      rw [startRecords_of_cold hm]
      exact ⟨rfl, tabWf_foldl_tabSet _ _ _ rfl, tabWf_foldl_tabSet _ _ _ rfl, rfl, rfl, rfl, rfl, rfl⟩
  profile _ := hallStart_inRange s
  takers h b := by
    rw [hallStart_booth]
    cases hm : s.marker with
    | true =>
      rw [startRecords_of_warm hm]
      exact (sized_warmRecords s.readProfile).takers h b
    | false =>
      rw [startRecords_of_cold hm, coldRecords_takers]
      exact ⟨List.Pairwise.nil, List.not_mem_nil⟩

theorem sound_hallStart : Sound s s.hallStart := by
  refine ⟨sized_hallStart s, fun h _ => ?_⟩
  have hrecords : s.startRecords.BindingsAgree ∧
      (∀ l, if (s.startRecords.language l).defined then l ≤ 31 else s.startRecords.language l = .undefined) ∧
      (∀ b l, (s.startRecords.booth b).config.names l → 1 ≤ b ∧ b ≤ 16 ∧ (s.startRecords.language l).defined = true) := by
    cases hm : s.marker with
    | true =>
      rw [startRecords_of_warm hm]
      exact warmRecords_agree (s := s.readProfile) hm h
        ((marker_of_unwritten (unwritten_warmRecords s.readProfile)).trans hm)
    | false =>
      rw [startRecords_of_cold hm]
      exact coldRecords_agree s.readProfile
  unfold State.BindingsAgree at hrecords ⊢
  simp only [hallStart_language, hallStart_channel, hallStart_booth]
  exact hrecords

end Sys2Proof.Machine
end

section
/-!
PROOFS. Every row of the operation table completes, leaves the queue of waiting commands alone, and keeps the bounds and the
agreement of the languages; the state after reset meets both.
-/
namespace Sys2Proof.Machine

-- The feed link

theorem setPort_feedTable (s : State) (p : Port) (q : PortState) : (s.setPort p q).feedTable = s.feedTable := by
  cases p <;> rfl

/-- At the end of its work the feed link is current: a send that is due has been started unless one is in progress (R22). -/
theorem feedCurrent_feedWork (s : State) : s.feedWork.FeedCurrent := by
  unfold State.FeedCurrent State.feedWork
  intro hr hs
  split at hr
  next hhall =>
    rw [if_pos hhall] at hs ⊢
    dsimp only at hs ⊢
    split at hs
    · exact nomatch hs
    next hidle =>
      rw [if_neg hidle]
      have hsame : s.feedTable = s.feed.last ∧ s.feed.due = false := by
        simp only [Bool.and_eq_true, Bool.or_eq_true, decide_eq_true_eq, Bool.not_eq_true', not_and, Bool.not_eq_false]
          at hidle
        constructor
        · by_contra hne
          exact Bool.false_ne_true (hs.symm.trans (hidle (.inr hne)))
        · by_contra hdue
          exact Bool.false_ne_true (hs.symm.trans (hidle (.inl (by simpa using hdue))))
      obtain ⟨htable, hdue⟩ := hsame
      exact ⟨by simp [htable, hdue], htable.symm⟩
  next hhall => exact absurd hr hhall

theorem feedCurrent_of_run {s : State} (h : s.run ≠ .hall) : s.FeedCurrent := fun hr => absurd hr h

-- A row keeps all

/-- A step of the table keeps every bound and the agreement of the languages. -/
structure Stepped (s t : State) : Prop extends Sound s t where
  feed : s.FeedCurrent → t.FeedCurrent

theorem Stepped.refl (s : State) : Stepped s s := ⟨.refl s, id⟩

theorem Stepped.trans {s t u : State} (h : Stepped s t) (h' : Stepped t u) : Stepped s u :=
  ⟨h.toSound.trans h'.toSound, h'.feed ∘ h.feed⟩

theorem Stepped.bounded {s t : State} (h : Stepped s t) (hs : s.Bounded) : t.Bounded :=
  ⟨h.ports hs.ports, h.queues hs.queues, h.clock hs.clock, h.tables hs.tables, h.feed hs.feed, h.profile hs.profile,
    h.takers hs.takers⟩

theorem Sound.stepped {s t : State} (h : Sound s t) : Stepped s t.feedWork :=
  ⟨h.feedWork, fun _ => feedCurrent_feedWork t⟩

section
variable {s t u : State} (h : Stepped s t)
include h

theorem Stepped.ite {c : Prop} {_ : Decidable c} (hu : Stepped s u) : Stepped s (if c then t else u) := by
  split
  · exact h
  · exact hu

theorem Stepped.foldl {α : Type} {f : State → α → State} (l : List α) (hf : ∀ t x, Stepped s t → Stepped s (f t x)) :
    Stepped s (l.foldl f t) := by
  induction l generalizing t with
  | nil => exact h
  | cons x rest ih => exact ih (hf t x h)

theorem Stepped.setPort {p : Port} {q : PortState} (hq : (t.port p).Within → q.Within) :
    Stepped s (t.setPort p q) := by
  refine ⟨h.toSound.setPort hq, fun hs => ?_⟩
  have ht := h.feed hs
  unfold State.FeedCurrent at ht ⊢
  rwa [setPort_run, setPort_feed, setPort_feedTable]

theorem Stepped.setHold {p : Port} {hold : Bool} : Stepped s (t.setHold p hold) := h.setPort id

theorem Stepped.choose {p : Port} : Stepped s (t.choose p) := h.setPort fun hp => hp.chooseFrame

theorem Stepped.hallEvent {effect : State → State} (he : ∀ t, Sound s t → Sound s (effect t)) :
    Stepped s (t.hallEvent effect) := (he t h.toSound).stepped.ite h

-- Commands (R176, R177)

theorem Stepped.take {p : Port} {tag code : Byte} {own : State → State × Reply} (ho : Sound t (own t).1) :
    Stepped s (t.take p tag code own) :=
  ((h.toSound.trans ho).setPort fun hp => hp.hand tag code (own t).2).stepped

theorem Stepped.command {p : Port} {tag code : Byte} {payload : List Byte} {own : State → State × Reply}
    (ho : Sound t (own t).1) : Stepped s (t.command p tag code payload own) :=
  h.ite ((h.take ho).ite (h.setPort fun hp => hp.keep code tag payload))

theorem Stepped.client {p : Port} {name : CommandName} {tag : Byte} {payload : List Byte} :
    Stepped s (t.command p tag name.code payload fun s => s.answer name p payload (perform name p payload)) :=
  h.command (sound_answer t p payload name)

theorem Stepped.takeNext {p : Port} : Stepped s (t.takeNext p) := by
  unfold State.takeNext
  dsimp only
  split
  next hreceived =>
    refine Stepped.take ?_ (sound_perform_code _ p _ _)
    refine h.setPort fun hp => ⟨hp.1, ?_⟩
    have hbuf := hp.2
    simp only [PortState.buffered, hreceived, List.map_cons, List.sum_cons] at hbuf ⊢
    omega
  next => exact h

theorem Stepped.receiveByte {p : Port} {b : LineByte} : Stepped s (State.receiveByte p t b) :=
  (h.setPort fun hp => hp.takeByte b).takeNext

theorem Stepped.endFrame {p : Port} : Stepped s (t.endFrame p) := by
  unfold State.endFrame
  dsimp only
  split
  · exact h
  · exact h.setPort fun hp => hp
  · refine Stepped.takeNext ?_
    exact h.setPort fun hp => hp

end

-- The rows

variable (s : State)

theorem stepped_hallEvent {effect : State → State} (he : ∀ t, Sound s t → Sound s (effect t)) :
    Stepped s (s.hallEvent effect) := (Stepped.refl s).hallEvent he

theorem stepped_dockEvent {r : Rack} {answers : Transaction → Bool} {lineFault : Bool}
    {own : Transaction → State → State} (hown : ∀ w t, Sound s t → Sound s (own w t)) :
    Stepped s (s.hallEvent fun s => s.dockEnd r answers lineFault own) :=
  stepped_hallEvent s fun _ h => h.dockEnd hown

/-- Every line falls silent; the issue queues and all else stay. -/
theorem sound_quiet : Sound s s.quiet where
  pending := rfl
  ports _ p := by cases p <;> exact PortState.Within.start _
  queues h r := by cases r; exacts [h .a, h .b]
  clock := id
  tables := id
  profile := id
  takers := id
  agree := id

theorem sound_enterInstall : Sound s s.enterInstall := by
  have hread : Sound s s.readProfile :=
    ⟨⟨rfl, id, id, id, id, fun _ => readProfile_inRange s, id⟩, id⟩
  have hquiet := hread.trans (sound_quiet s.readProfile)
  exact ⟨⟨hquiet.pending, hquiet.ports, hquiet.queues, hquiet.clock, hquiet.tables, hquiet.profile, hquiet.takers⟩,
    hquiet.agree⟩

theorem stepped_powerDown : Stepped s { s.quiet with run := .off } := by
  have hquiet := sound_quiet s
  exact ⟨⟨⟨hquiet.pending, hquiet.ports, hquiet.queues, hquiet.clock, hquiet.tables, hquiet.profile, hquiet.takers⟩,
    hquiet.agree⟩, fun _ => feedCurrent_of_run RunState.noConfusion⟩

theorem stepped_hallStart : Stepped s s.hallStart :=
  ⟨sound_hallStart s, fun _ _ hs => by rw [hallStart_feed] at hs; exact nomatch hs⟩

theorem withRetained_booth (r : Retained) (b : Nat) :
    (s.withRetained r).booth b =
      if 1 ≤ b ∧ b ≤ 16 then (s.booth b).withRetained (tabGet ⟨.initial 30, []⟩ r.booths b) else s.booth b := by
  refine (tabGet_foldl_tabSet Booth.initial
    (fun b => (s.booth b).withRetained (tabGet ⟨.initial 30, []⟩ r.booths b)) _ s.booths b).trans ?_
  simp only [List.mem_range'_1]
  by_cases hb : 1 ≤ b ∧ b ≤ 16
  · rw [if_pos hb, if_pos (by omega)]
  · rw [if_neg hb, if_neg (by omega)]; rfl

/-- A loss of the retained memory takes the retention marker, and what it leaves of the booths keeps their takers. -/
theorem sound_withRetained (r : Retained) (k : Nat) : Sound s { s.withRetained r with freeCount := k } where
  pending := rfl
  ports h p := by cases p; exacts [h .ops, h .deskA, h .deskB]
  queues h r := by cases r; exacts [h .a, h .b]
  clock h := ⟨h.1, fun hm => nomatch hm⟩
  tables _ hm := nomatch hm
  profile := id
  takers h b := by
    have htakers : ((s.withRetained r).booth b).takers = (s.booth b).takers := by
      rw [withRetained_booth]; split <;> rfl
    exact htakers.symm ▸ h b
  agree _ hm := nomatch hm

/-- Every command and event completes, and keeps every bound and the agreement of the languages. -/
theorem exec_stepped (c : Instr) : ∃ t, exec c s = .next t ∧ Stepped s t := by
  cases c with
  | status p tag payload | read p tag payload | readReserve p tag payload | reserveDrop p tag payload
  | langDefine p tag payload | langRemove p tag payload | chanMap p tag payload | chanUnmap p tag payload
  | chanMove p tag payload | chanFloorfill p tag payload | boothConfig p tag payload | boothInput p tag payload
  | seatForceTake p tag payload | seatForceOff p tag payload | tariffWrite p tag payload | filterWrite p tag payload
  | clockSet p tag payload | dayClose p tag payload | receiverEnroll p tag payload | receiverRetire p tag payload
  | receiverService p tag payload | reportClear p tag payload | profileRead p tag payload
  | accountOpen p tag payload | accountFind p tag payload | accountClose p tag payload | issue p tag payload
  | settlementTake p tag payload | slotClear p tag payload | rackReset p tag payload | enrollSlot p tag payload
  | accountAdjust p tag payload | lossDeclare p tag payload =>
    exact ⟨_, rfl, (Stepped.refl s).client⟩
  | profileWrite p tag payload failure =>
    have hfailure : Stepped s { s with storeFailure := failure } := ⟨⟨⟨rfl, id, id, id, id, id, id⟩, id⟩, id⟩
    exact ⟨_, rfl, hfailure.client (name := .profileWrite)⟩
  | unknownCommand p tag code payload =>
    exact ⟨_, rfl, (Stepped.refl s).command (sound_perform_code s p payload code)⟩
  | frameReceived p hold bytes =>
    exact ⟨_, rfl, (Stepped.refl s).setHold.ite ((Stepped.refl s).setHold.choose.foldl _ fun _ _ h => h.receiveByte)⟩
  | frameTimeout p =>
    refine ⟨_, rfl, (Stepped.refl s).ite ((Stepped.refl s).setPort fun hp => ⟨hp.1, ?_⟩)⟩
    exact Nat.le_trans (Nat.add_le_add_left (Nat.zero_le _) _) hp.2
  | frameSent p hold =>
    exact ⟨_, rfl, (Stepped.refl s).setHold.ite (Stepped.refl s).setHold.endFrame.choose⟩
  | holdReleased p => exact ⟨_, rfl, (Stepped.refl s).setHold.ite (Stepped.refl s).setHold.choose⟩
  | boothSlot b => exact ⟨_, rfl, stepped_hallEvent s fun _ h => h.boothSlot⟩
  | advertise b a => exact ⟨_, rfl, stepped_hallEvent s fun _ h => h.inSlot fun _ h => h.takeAdvertise⟩
  | grantAck b taken => exact ⟨_, rfl, stepped_hallEvent s fun _ h => h.inSlot fun _ h => h.takeGrantAck⟩
  | statusReply b sequence events => exact ⟨_, rfl, stepped_hallEvent s fun _ h => h.inSlot fun _ h => h.statusReply⟩
  | slotUnanswered b => exact ⟨_, rfl, stepped_hallEvent s fun _ h => h.inSlot fun _ h => h.unanswered.ite h⟩
  | faultWaitEnd b => exact ⟨_, rfl, stepped_hallEvent s fun _ h => h.endFaultWait⟩
  | mic b n => exact ⟨_, rfl, stepped_hallEvent s fun _ h => h.micKey⟩
  | muteDown b n | muteUp b n => exact ⟨_, rfl, stepped_hallEvent s fun _ h => h.muteKey⟩
  | outputA b => exact ⟨_, rfl, stepped_hallEvent s fun _ h => h.outputAKey⟩
  | outputB b => exact ⟨_, rfl, stepped_hallEvent s fun _ h => h.outputBKey⟩
  | floorSel b => exact ⟨_, rfl, stepped_hallEvent s fun _ h => h.floorKey⟩
  | relaySel b source => exact ⟨_, rfl, stepped_hallEvent s fun _ h => h.relayKey⟩
  | previous b => exact ⟨_, rfl, stepped_hallEvent s fun _ h => h.previousKey⟩
  | flashTimerExpiry b lamp => exact ⟨_, rfl, stepped_hallEvent s fun _ h => h.setBooth rfl rfl⟩
  | secondEvent => exact ⟨_, rfl, stepped_hallEvent s fun _ h => h.tickSecond⟩
  | minuteTick => exact ⟨_, rfl, stepped_hallEvent s fun _ h => h.tickMinute⟩
  | redirectExpiry c => exact ⟨_, rfl, stepped_hallEvent s fun _ h => h.endRedirect⟩
  | handoverLapse b => exact ⟨_, rfl, stepped_hallEvent s fun _ h => h.lapse⟩
  | feedRepeat => exact ⟨_, rfl, stepped_hallEvent s fun _ h => h.setFeed⟩
  | feedTransmissionEnd => exact ⟨_, rfl, stepped_hallEvent s fun _ h => h.setFeed⟩
  | scanRound r => exact ⟨_, rfl, stepped_hallEvent s fun _ h => h.scanRound⟩
  | probeOutcome r n outcome =>
    exact ⟨_, rfl, stepped_dockEvent s fun _ _ h => h.probeAnswer.ite h.probeMiss⟩
  | identOutcome r n outcome =>
    refine ⟨_, rfl, stepped_dockEvent s fun _ _ h => ?_⟩
    cases outcome with
    | done ident => exact h.identDone
    | noAnswer | lineFault => exact h.departSlot
  | presetOutcome r outcome =>
    refine ⟨_, rfl, stepped_dockEvent s fun w t h => ?_⟩
    split
    · exact h.presetDone
    · exact h.departSlot
  | markHiredOutcome r outcome =>
    exact ⟨_, rfl, stepped_dockEvent s fun _ _ h => h.completeIssue.ite h.departSlot⟩
  | returnMarkOutcome r n outcome =>
    exact ⟨_, rfl, stepped_dockEvent s fun _ _ h => h.returnMarked.ite h.departSlot⟩
  | repairMarkOutcome r n outcome =>
    refine ⟨_, rfl, stepped_dockEvent s fun w t h => ?_⟩
    split
    · exact h.repairDone
    · exact h.departSlot
  | powerUp strap =>
    have hinstall : Stepped s s.enterInstall := ⟨sound_enterInstall s, fun _ => feedCurrent_of_run RunState.noConfusion⟩
    exact ⟨_, rfl, hinstall.ite (stepped_hallStart s)⟩
  | resetn => exact ⟨_, rfl, (Stepped.refl s).ite (stepped_hallStart s)⟩
  | powerDown => exact ⟨_, rfl, stepped_powerDown s⟩
  | retainedMemoryLoss => exact ⟨_, rfl, (sound_withRetained s _ _).stepped⟩

/-- What a step does: it idles, or it is the row at the front of the queue. -/
theorem step_stepped {s t : State} (h : step s = .next t) :
    s = t ∨ ∃ c rest, s.pending = c :: rest ∧ Stepped { s with pending := rest } t := by
  unfold step at h
  split at h
  · exact .inl (Host.Outcome.next.inj h)
  next c rest hpending =>
    obtain ⟨u, hu, hstep⟩ := exec_stepped { s with pending := rest } c
    exact .inr ⟨c, rest, hpending, Host.Outcome.next.inj (hu.symm.trans h) ▸ hstep⟩

-- The statements

/-- Settles O58: a row keeps every bound (`exec_stepped`), and the queue of waiting commands is none of them. -/
theorem stepKeepsBounds : Obligations.StepKeepsBounds := by
  intro s t hs hstep
  obtain rfl | ⟨c, rest, -, hrow⟩ := step_stepped hstep
  · exact hs
  · exact hrow.bounded ⟨hs.ports, hs.queues, hs.clock, hs.tables, hs.feed, hs.profile, hs.takers⟩

/-- Settles O59: a row keeps the languages in agreement (`exec_stepped`). -/
theorem stepKeepsLanguagesInAgreement : Obligations.StepKeepsLanguagesInAgreement := by
  intro s t hs hstep
  obtain rfl | ⟨c, rest, -, hrow⟩ := step_stepped hstep
  · exact hs
  · exact hrow.agree hs

/-- Settles O2: every row completes and keeps the queue of waiting commands (`exec_stepped`). -/
theorem execKeepsQueue : Obligations.ExecKeepsQueue := by
  intro c s
  obtain ⟨t, hexec, hrow⟩ := exec_stepped s c
  exact ⟨t, hexec, hrow.pending⟩

/-- Settles O1: the two cases of `step`, an empty queue and one with a front. -/
theorem stepTakesFrontCommand : Obligations.StepTakesFrontCommand := by
  refine ⟨fun c rest s hs => ?_, fun s hs => ?_⟩
  · simp only [step, hs]
  · simp only [step, hs]

/-- Settles O60: every record of the reset state is blank and its profile is the default one, so that each bound is read off
the state. -/
theorem resetMeetsInvariants : Obligations.ResetMeetsInvariants := by
  refine ⟨⟨fun p => ?_, fun r => ?_, ⟨by decide, fun _ => ⟨Nat.zero_le _, Nat.zero_le _⟩⟩, fun _ => ?_, fun _ hs => ?_, ?_,
    fun b => ?_⟩, fun _ => ⟨⟨fun l c hc => ?_, fun c l hc => ?_⟩, fun l => ?_, fun b l hb => ?_⟩, rfl, rfl, rfl, rfl, rfl,
    rfl, fun _ => rfl, fun _ => rfl⟩
  · cases p <;> exact PortState.Within.start false
  · cases r <;> exact Nat.zero_le _
  · exact ⟨rfl, rfl, rfl, rfl, rfl, rfl, rfl, rfl⟩
  · exact nomatch hs
  · unfold State.ProfileInRange
    decide
  · exact ⟨List.Pairwise.nil, List.not_mem_nil⟩
  · exact nomatch hc
  · exact nomatch hc
  · exact rfl
  · rcases hb with hb | hb | hb
    · exact nomatch hb
    · exact nomatch hb
    · exact nomatch hb

end Sys2Proof.Machine
end

section
/-!
PROOFS. The starts and the power events (R204, R206), settled.
-/
namespace Sys2Proof.Machine

variable {s : State}

/-- POWER_UP with the strap open, and RESETN of a powered part, are a hall start (R206). -/
theorem exec_hallStart {event : Instr} (he : event = .powerUp false ∨ (event = .resetn ∧ s.run ≠ .off)) :
    exec event s = .next s.hallStart := by
  rcases he with rfl | ⟨rfl, hrun⟩
  · rfl
  · exact congrArg Host.Outcome.next (if_neg hrun)

theorem hallStart_startsWorking : StartsWorking s s.hallStart s.startNotices := by
  obtain ⟨-, -, hrun, -, hmarker, hsuspect, hsecond, hline⟩ := hallStart_records s
  exact ⟨hrun, hmarker, hsuspect, hsecond, hline, hallStart_port s, hallStart_feed s, hallStart_rack s,
    hallStart_profile s, hallStart_clamped s⟩

/-- Settles O55: a cold start writes every retained record anew (`coldRecords`), and the working state of a start is
`hallStart_startsWorking`. -/
theorem coldStartClears : Obligations.ColdStartClears := by
  intro s event hm he profile
  obtain ⟨⟨-, -, -, hreceivers, haccounts, htariffs, hfilters, hreports⟩, ⟨hbufferA, hbufferB, hminute, hday⟩, -, hkind,
    -⟩ := hallStart_records s
  have hcold : s.startRecords = s.readProfile.coldRecords := startRecords_of_cold hm
  have hnextKind : s.nextKind = .cold := by simp [State.nextKind, hm]
  have hnotices : s.startNotices = [] := by simp [State.startNotices, hnextKind]
  rw [hcold] at hreceivers haccounts htariffs hfilters hreports hbufferA hbufferB hminute hday
  refine ⟨s.hallStart, exec_hallStart he, hnotices ▸ hallStart_startsWorking, hkind.trans hnextKind, hminute, hday,
    fun l => ?_, fun c h1 h24 => ?_, fun b h1 h16 => ?_, fun i => ?_, fun i => ?_, fun k => ?_, fun k => ?_, fun r => ?_,
    fun k => ?_, hallStart_pending s, hallStart_store s⟩
  · rw [hallStart_language, hcold]; rfl
  · rw [hallStart_channel, hcold, coldRecords_channel, if_pos ⟨h1, h24⟩]; rfl
  · rw [hallStart_booth, hcold, coldRecords_booth, if_pos ⟨h1, h16⟩]
    exact ⟨rfl, fun _ => rfl⟩
  · unfold State.receiver; rw [hreceivers]; rfl
  · unfold State.account; rw [haccounts]; rfl
  · unfold State.tariff; rw [htariffs]; rfl
  · unfold State.filter; rw [hfilters]; rfl
  · cases r
    exacts [hbufferA, hbufferB]
  · unfold State.report; rw [hreports]; rfl

-- A warm start

theorem seat_warm (v : Booth) {n : Nat} (h1 : 1 ≤ n) (h3 : n ≤ 3) :
    v.warm.seat n = ⟨.off, 0, false, (v.seat n).liveMinutes⟩ := by
  obtain rfl | rfl | rfl : n = 1 ∨ n = 2 ∨ n = 3 := by omega
  all_goals simp [Booth.warm, seat_setSeat, Seat.initial]

/-- In a canonical pool in which no record reads PENDING, no entry is PENDING. -/
theorem pendingOn_eq_zero {pool : Tab (Option Receiver)} (hpool : tabWf none pool = true)
    (h : ∀ i v ref l r, tabGet none pool i = some v → v.state ≠ .pending ref l r) (l : Nat) : pendingOn l pool = 0 := by
  have hread : ∀ e ∈ pool, tabGet none pool e.1 = e.2 := by
    rw [tabWf_iff] at hpool
    obtain ⟨hrising, -⟩ := hpool
    clear h
    induction pool with
    | nil => simp
    | cons a rest ih =>
      obtain ⟨i, v⟩ := a
      obtain ⟨hlow, hrest⟩ := List.pairwise_cons.1 hrising
      intro e he
      rcases List.mem_cons.1 he with rfl | he
      · simp [tabGet]
      · have hne : ¬ i = e.1 := Nat.ne_of_lt (hlow _ (List.mem_map_of_mem (f := Prod.fst) he))
        simp only [tabGet, if_neg hne]
        exact ih hrest e he
  refine List.countP_eq_zero.2 fun e he => ?_
  obtain ⟨i, w⟩ := e
  have hw := hread _ he
  cases w with
  | none => simp
  | some v =>
    have hv := fun ref l r => h i v ref l r hw
    cases hstate : v.state with
    | pending ref k r => exact absurd hstate (hv ref k r)
    | stock | issued _ _ _ _ | lost _ _ | service => simp [hstate]

theorem unwritten_startRecords (hm : s.marker = true) : s.startRecords.unwritten = s.readProfile.unwritten := by
  rw [startRecords_of_warm hm]
  exact unwritten_warmRecords s.readProfile

/-- A language after a warm start, as the part then reads it (R5, R24, R127). -/
theorem hallStart_language_warm (hm : s.marker = true) (l : Nat) [Decidable (s.readProfile.loses l)] :
    s.hallStart.language l =
      { s.language l with
        owner := if l ≤ 31 then none else (s.language l).owner
        channel := if s.readProfile.loses l then none else (s.language l).channel
        listeners := (s.language l).listeners - pendingOn l s.receivers } := by
  rw [hallStart_language, startRecords_of_warm hm, warmRecords_language]
  rfl

/-- Settles O56: the records of a warm start are read off one by one (`warmRecords_language`, `warmRecords_channel`,
`warmRecords_booth`), and the working state of a start is `hallStart_startsWorking`. -/
theorem warmStartKeeps : Obligations.WarmStartKeeps := by
  classical
  intro s event hm he fitted
  obtain ⟨⟨-, -, -, -, -, htariffs, hfilters, hreports⟩, ⟨hbufferA, hbufferB, hminute, hday⟩, -, hkind, -⟩ :=
    hallStart_records s
  have hwarm : s.startRecords = s.readProfile.warmRecords := startRecords_of_warm hm
  have hkept := unwritten_startRecords hm
  have hnextKind : s.nextKind = .warm := by simp [State.nextKind, hm]
  have hnow : s.startRecords.now = ⟨s.minute, s.day⟩ := by
    unfold State.now
    rw [minute_of_unwritten hkept, day_of_unwritten hkept]; rfl
  have hnotices : s.startNotices = [.clockSuspect ⟨s.minute, s.day⟩ .warm] := by
    simp [State.startNotices, hnextKind, hnow]
  have hlanguage := fun l => hallStart_language_warm hm l
  refine ⟨s.hallStart, exec_hallStart he, hnotices ▸ hallStart_startsWorking, hkind.trans hnextKind, fun l hl => ?_,
    fun l hl hhigh => ?_, fun c l h1 h24 hc hcl => ?_, fun hnone hcanon l => ?_, fun l hl => ?_, fun c h1 h24 => ?_,
    fun b h1 h16 => ?_, fun i => ?_, fun i => ?_, htariffs.trans (tariffs_of_unwritten hkept :),
    hfilters.trans (filters_of_unwritten hkept :), fun r => ?_, hreports.trans (reports_of_unwritten hkept :),
    hminute.trans (minute_of_unwritten hkept :), hday.trans (day_of_unwritten hkept :), hallStart_pending s,
    hallStart_store s⟩
  · rw [hlanguage, if_pos hl]
  · rw [hlanguage]
    refine if_neg ?_
    rintro ⟨c, h1, h24, hc, hcl⟩
    exact hhigh c h1 h24 hc hcl
  · rw [hlanguage]
    exact if_pos ⟨c, h1, h24, hc, hcl⟩
  · rw [hlanguage]
    obtain ⟨-, -, -, hpool, -⟩ := hcanon hm
    exact congrArg ((s.language l).listeners - ·) (pendingOn_eq_zero hpool hnone l)
  · rw [hlanguage]; rfl
  · rw [hallStart_channel, hwarm, warmRecords_channel, if_pos ⟨h1, h24⟩]
    rfl
  · rw [hallStart_booth, hwarm, warmRecords_booth, if_pos ⟨h1, h16⟩]
    exact ⟨rfl, fun n hn1 hn3 => seat_warm _ hn1 hn3⟩
  · obtain ⟨⟨-, -, -, hreceivers, -⟩, -⟩ := hallStart_records s
    have hread : s.hallStart.receiver i = s.readProfile.warmRecords.receiver i := by
      unfold State.receiver; rw [hreceivers, hwarm]
    rw [hread, warmRecords_receiver]
    have hsame : s.readProfile.receiver i = s.receiver i := rfl
    rw [hsame]
    cases s.receiver i with
    | none => rfl
    | some v =>
      cases hv : v.state <;> simp [Receiver.warm, hv]
  · obtain ⟨⟨-, -, -, -, haccounts, -⟩, -⟩ := hallStart_records s
    have hread : s.hallStart.account i = s.readProfile.warmRecords.account i := by
      unfold State.account; rw [haccounts, hwarm]
    rw [hread, warmRecords_account]
    rfl
  · cases r
    · exact hbufferA.trans (bufferA_of_unwritten hkept :)
    · exact hbufferB.trans (bufferB_of_unwritten hkept :)

-- INSTALL, POWER_DOWN and the loss of the retained memory

theorem seat_withRetained (v : Booth) (r : RetainedBooth) (n : Nat) :
    ∃ minutes, (v.withRetained r).seat n = { v.seat n with liveMinutes := minutes } := by
  unfold Booth.withRetained
  dsimp only
  by_cases h3 : n = 3
  · subst h3; exact ⟨tabGet 0 r.minutes 3, by simp only [seat_setSeat]; rfl⟩
  by_cases h2 : n = 2
  · subst h2; exact ⟨tabGet 0 r.minutes 2, by simp only [seat_setSeat]; rfl⟩
  by_cases h1 : n = 1
  · subst h1; exact ⟨tabGet 0 r.minutes 1, by simp only [seat_setSeat]; rfl⟩
  · exact ⟨(v.seat n).liveMinutes, by simp only [seat_setSeat, h1, h2, h3, if_false]; rfl⟩

theorem booth_withRetained (v : Booth) (r : RetainedBooth) :
    v.withRetained r = { v with config := r.config, seats := (v.withRetained r).seats } := rfl

/-- Settles O57: each row is its own rule, read field by field; a loss leaves of a booth all but what it retains. -/
theorem powerEventsAct : Obligations.PowerEventsAct := by
  intro s silent
  refine ⟨⟨s.enterInstall, rfl, rfl, ⟨fun p => ?_, fun r => ?_, rfl, rfl⟩, rfl, rfl, rfl⟩,
    ⟨{ s.quiet with run := .off }, rfl, rfl, ⟨fun p => ?_, fun r => ?_, rfl, rfl⟩, rfl⟩,
    ⟨_, rfl, by rw [feedWork_marker]; rfl, fun b => ?_, fun b n => ?_, ?_⟩⟩
  · cases p <;> rfl
  · cases r <;> rfl
  · cases p <;> rfl
  · cases r <;> rfl
  · have hbooth : State.booth _ b = (s.withRetained (Config.lostMemory s.freeCount)).booth b :=
      feedWork_booth { s.withRetained (Config.lostMemory s.freeCount) with freeCount := s.freeCount + 1 } b
    rw [hbooth, withRetained_booth]
    split
    · exact ⟨_, _, booth_withRetained _ _⟩
    · exact ⟨_, _, rfl⟩
  · have hbooth : State.booth _ b = (s.withRetained (Config.lostMemory s.freeCount)).booth b :=
      feedWork_booth { s.withRetained (Config.lostMemory s.freeCount) with freeCount := s.freeCount + 1 } b
    rw [hbooth, withRetained_booth]
    split
    · obtain ⟨minutes, hseat⟩ := seat_withRetained (s.booth b)
        (tabGet ⟨.initial 30, []⟩ (Config.lostMemory s.freeCount).booths b) n
      rw [hseat]
      exact ⟨rfl, rfl, rfl⟩
    · exact ⟨rfl, rfl, rfl⟩
  · rw [feedWork_frame]
    rfl

end Sys2Proof.Machine
end

section
/-!
PROOFS. What a row leaves of the state its own rule left, and the refusals of the client commands (R176, R177).
-/
namespace Sys2Proof.Machine

section
variable (s : State) (p : Port) (tag code : Byte) (r : Reply)

-- The reply and the feed link write nothing but the port and the feed record.

@[simp] theorem after_pending : (s.after p tag code r).pending = s.pending := by simp [State.after]
@[simp] theorem after_run : (s.after p tag code r).run = s.run := by simp [State.after]
@[simp] theorem after_startKind : (s.after p tag code r).startKind = s.startKind := by simp [State.after]
@[simp] theorem after_marker : (s.after p tag code r).marker = s.marker := by simp [State.after]
@[simp] theorem after_languages : (s.after p tag code r).languages = s.languages := by simp [State.after]
@[simp] theorem after_channels : (s.after p tag code r).channels = s.channels := by simp [State.after]
@[simp] theorem after_booths : (s.after p tag code r).booths = s.booths := by simp [State.after]
@[simp] theorem after_receivers : (s.after p tag code r).receivers = s.receivers := by simp [State.after]
@[simp] theorem after_accounts : (s.after p tag code r).accounts = s.accounts := by simp [State.after]
@[simp] theorem after_tariffs : (s.after p tag code r).tariffs = s.tariffs := by simp [State.after]
@[simp] theorem after_filters : (s.after p tag code r).filters = s.filters := by simp [State.after]
@[simp] theorem after_bufferA : (s.after p tag code r).bufferA = s.bufferA := by simp [State.after]
@[simp] theorem after_bufferB : (s.after p tag code r).bufferB = s.bufferB := by simp [State.after]
@[simp] theorem after_reports : (s.after p tag code r).reports = s.reports := by simp [State.after]
@[simp] theorem after_rackA : (s.after p tag code r).rackA = s.rackA := by simp [State.after]
@[simp] theorem after_rackB : (s.after p tag code r).rackB = s.rackB := by simp [State.after]
@[simp] theorem after_line : (s.after p tag code r).line = s.line := by simp [State.after]
@[simp] theorem after_profile : (s.after p tag code r).profile = s.profile := by simp [State.after]
@[simp] theorem after_clamped : (s.after p tag code r).clamped = s.clamped := by simp [State.after]
@[simp] theorem after_store : (s.after p tag code r).store = s.store := by simp [State.after]
@[simp] theorem after_storeFailure : (s.after p tag code r).storeFailure = s.storeFailure := by simp [State.after]
@[simp] theorem after_freeCount : (s.after p tag code r).freeCount = s.freeCount := by simp [State.after]
@[simp] theorem after_language (j : Nat) : (s.after p tag code r).language j = s.language j := by simp [State.after]
@[simp] theorem after_channel (j : Nat) : (s.after p tag code r).channel j = s.channel j := by simp [State.after]
@[simp] theorem after_booth (j : Nat) : (s.after p tag code r).booth j = s.booth j := by simp [State.after]
@[simp] theorem after_receiver (j : Nat) : (s.after p tag code r).receiver j = s.receiver j := by simp [State.after]
@[simp] theorem after_tariff (j : Nat) : (s.after p tag code r).tariff j = s.tariff j := by simp [State.after]
@[simp] theorem after_filter (j : Nat) : (s.after p tag code r).filter j = s.filter j := by simp [State.after]
@[simp] theorem after_rack (x : Rack) : (s.after p tag code r).rack x = s.rack x := by simp [State.after]
@[simp] theorem after_slot (x : Rack) (n : Nat) : (s.after p tag code r).slot x n = s.slot x n := by simp [State.after]

end

variable {s : State}

theorem hallEvent_of_hall {effect : State → State} (h : s.run = .hall) :
    s.hallEvent effect = (effect s).feedWork := if_pos h

/-- A row of the hall whose effect is known (R204). -/
theorem event_next {i : Instr} {effect : State → State} {t : State} (hi : exec i s = .next (s.hallEvent effect))
    (h : s.run = .hall) (he : effect s = t) : exec i s = .next t.feedWork := by
  rw [hi, hallEvent_of_hall h, he]

/-- A client command whose rule refuses it by the first of its checks that fails (R177). -/
theorem refusedBy_own {i : Instr} {p : Port} {tag : Byte} {payload : List Byte} {name : CommandName}
    {f : State → State × Reply} {checks : List (Bool × Result)}
    (hi : exec i s = .next (s.command p tag name.code payload fun s => s.answer name p payload f)) (h : s.Takes p)
    (hp : name.permitted p = true) (hl : name.lengthOk payload.length = true)
    (hf : ∀ x, firstFailure checks = some x → f s = refuse s x) : RefusedBy i s p tag name.code checks :=
  fun x hx => answers_own s hi h hp hl (hf x hx)

-- Bytes of the payload (R207)

@[simp] theorem flagOf_ite (b : Bool) : flagOf (if b then 0x01 else 0x00) = some b := by cases b <;> rfl

theorem flagOf_of_lt {b : Byte} (h : 1 < b.toNat) : flagOf b = none := conditionOf_of_lt h

theorem flagOf_of_not_lt {b : Byte} (h : ¬ 1 < b.toNat) : flagOf b = some (decide (b = 0x01)) :=
  conditionOf_of_not_lt h

theorem badChannel_eq (c : Byte) : badChannel s c = !s.channelOk c := by
  have hzero : c = 0x00 ↔ ¬ 1 ≤ c.toNat := by bv_omega
  unfold badChannel State.channelOk
  rw [Bool.eq_iff_iff]
  simp only [hzero, decide_eq_true_eq, Bool.not_eq_true', Bool.and_eq_false_iff, decide_eq_false_iff_not]
  omega

-- Chains of writes and notices to the operations port

theorem toOps_nil : toOps [] = toNone := by
  funext p
  cases p <;> rfl

/-- A step without notices, as the beginning of a chain of notices to the operations port. -/
theorem Told.silent {s t : State} {rs : List RecordName} (h : Told s t rs toNone) : Told s t rs (toOps []) :=
  toOps_nil ▸ h

theorem Told.trans_ops {s t u : State} {rs rs' : List RecordName} {ns ns' : List Notice} (h : Told s t rs (toOps ns))
    (h' : Told t u rs' (toOps ns')) : Told s u (rs ++ rs') (toOps (ns ++ ns')) :=
  (h.trans h').congr (toOps_append ns ns')

section
variable {s t : State} {rs : List RecordName} {ns : List Notice} (h : Told s t rs (toOps ns))
include h

theorem Told.then_silent {u : State} {rs' : List RecordName} (h' : Told t u rs' toNone) :
    Told s u (rs ++ rs') (toOps ns) := by
  simpa using h.trans_ops h'.silent

theorem Told.notifyOps (n : Notice) : Told s (t.notify .ops n) rs (toOps (ns ++ [n])) := by
  simpa using h.trans_ops (told_notifyOps t n)

theorem Told.setChannel {c : Nat} {v : Channel} (hv : v.view ≠ (t.channel c).view) :
    Told s (t.setChannel c v) (rs ++ [.channel c]) (toOps ns) := h.then_silent (told_setChannel_of_ne t c v hv)

theorem Told.setLanguage {l : Nat} {v : Language} (hv : v ≠ t.language l) :
    Told s (t.setLanguage l v) (rs ++ [.language l]) (toOps ns) := h.then_silent (told_setLanguage_of_ne t l v hv)

end

end Sys2Proof.Machine
end

section
/-!
PROOFS. Chapter 1: the commands of the language table and of the channel map (R2, R3, R14 to R19), settled.
-/
namespace Sys2Proof.Machine

variable {s : State}

-- REDIRECT_EXPIRY (R18, R19)

/-- Settles O8: a REDIRECT channel ends (`told_endRedirect`, `channel_endRedirect`), another is not touched. -/
theorem redirectExpires : Obligations.RedirectExpires := by
  refine ⟨fun s c _ hc => ignored_event s rfl fun _ => ?_, ?_⟩
  · unfold State.endRedirect
    split
    next h => exact absurd h (hc _ _)
    next => rfl
  · intro s c target hold hr hs after
    refine ⟨_, event_next rfl hr rfl, ?_, fun x hx => ?_, (told_endRedirect s .expired hs).feedWork, ?_⟩
    · rw [feedWork_channel, channel_endRedirect s .expired hs, if_pos rfl]
    · rw [feedWork_channel, channel_endRedirect s .expired hs, if_neg hx]
    · rw [feedWork_frame, endRedirect_frame]

-- CHAN_FLOORFILL (R17)

theorem doChanFloorfill_refused {channel on : Byte} {x : Result}
    (h : firstFailure [(decide (badChannel s channel = true ∨ 1 < on.toNat), Result.badArg)] = some x) :
    doChanFloorfill .ops [channel, on] s = refuse s x := by
  rw [firstFailure_cons, firstFailure_nil] at h
  by_cases hon : 1 < on.toNat
  · rw [if_pos (by simp [hon])] at h
    simp only [doChanFloorfill, flagOf_of_lt hon, Option.some.inj h]
  · simp only [doChanFloorfill, flagOf_of_not_lt hon]
    exact refuse_of_check s (by simp [badChannel_eq, hon]) h fun h => nomatch h

theorem floorFill_same {c : Nat} {on : Bool} (h : (s.channel c).floorFill = on) :
    ({ s.channel c with floorFill := on } : Channel) = s.channel c := by
  rw [← h]

/-- Settles O7: the new flag is the old one and nothing is written, or the channel is written and told. -/
theorem chanFloorfillWrites : Obligations.ChanFloorfillWrites := by
  refine ⟨fun s tag channel on ht => refusedBy_own (name := .chanFloorfill) rfl ht rfl rfl
    fun x hx => doChanFloorfill_refused hx, ?_⟩
  intro s on tag channel ht hok c after
  by_cases hsame : (s.channel c).floorFill = on
  · have hafter : after = s.channel c := floorFill_same hsame
    have hdo : doChanFloorfill .ops [channel, if on then 0x01 else 0x00] s = (s, .bare .ok) := by
      simp only [doChanFloorfill, flagOf_ite]
      rw [if_neg (by simp [hok]), if_pos hsame]
    refine ⟨_, client_next (name := .chanFloorfill) ht rfl rfl hdo, ?_, fun x _ => after_channel .., ?_, ?_⟩
    · rw [after_channel, hafter]
    · rw [if_pos hafter, if_pos hafter]
      exact answered_after (Told.refl s).silent
    · refine (after_frame s _ _ _ _).trans ?_
      simp
  · have hview : after.view ≠ (s.channel c).view := fun e => hsame (congrArg Prod.snd e).symm
    have hafter : after ≠ s.channel c := fun e => hview (congrArg Channel.view e)
    have hdo : doChanFloorfill .ops [channel, if on then 0x01 else 0x00] s =
        ((s.setChannel c after).notify .ops (.channelChanged c after), .bare .ok) := by
      simp only [doChanFloorfill, flagOf_ite]
      rw [if_neg (by simp [hok]), if_neg hsame]
      simp [c, after]
    refine ⟨_, client_next (name := .chanFloorfill) ht rfl rfl hdo, ?_, fun x hx => ?_, ?_, ?_⟩
    · simp
    · simp [channel_setChannel, hx]
    · rw [if_neg hafter, if_neg hafter]
      exact answered_after ((Told.refl s).silent.setChannel hview |>.notifyOps _)
    · refine (after_frame _ _ _ _ _).trans ?_
      ext <;> simp

-- LANG_DEFINE and LANG_REMOVE (R2, R3)

theorem labelOf_eq (field : List Byte) :
    labelOf field = if labelField field then some (field.takeWhile (· ≠ 0x00)) else none := by
  have hdrop (p : Byte → Bool) : field.drop (field.takeWhile p).length = field.dropWhile p := by
    have hsplit := List.drop_left (l₁ := field.takeWhile p) (l₂ := field.dropWhile p)
    rwa [List.takeWhile_append_dropWhile] at hsplit
  unfold labelOf labelField
  dsimp only
  rw [hdrop]

/-- A printable label survives its 12-byte field (R207). -/
theorem labelOf_textBytes {text : List Byte} (h : text.all printable = true) :
    labelOf (textBytes 12 text) = some text := by
  have hne : ∀ b ∈ text, decide (b ≠ 0x00) = true := by
    intro b hb
    have hb := List.all_eq_true.1 h b hb
    simp only [printable, Bool.and_eq_true, decide_eq_true_eq] at hb
    refine decide_eq_true fun hzero => ?_
    rw [hzero] at hb
    exact absurd hb.1 (by decide)
  have hpad : ∀ k, (List.replicate k (0x00 : Byte)).takeWhile (· ≠ 0x00) = [] ∧
      (List.replicate k (0x00 : Byte)).dropWhile (· ≠ 0x00) = List.replicate k 0x00 := by
    intro k
    cases k <;> simp [List.replicate_succ]
  have htake : (textBytes 12 text).takeWhile (· ≠ 0x00) = text := by
    unfold textBytes
    rw [List.takeWhile_append_of_pos hne, (hpad _).1, List.append_nil]
  have hdrop : (textBytes 12 text).dropWhile (· ≠ 0x00) = List.replicate (12 - text.length) 0x00 := by
    unfold textBytes
    rw [List.dropWhile_append_of_pos hne, (hpad _).2]
  rw [labelOf_eq, labelField, htake, hdrop, h]
  simp

theorem codeTaken_iff (i : Nat) (code : List Byte) :
    s.codeTaken i code = true ↔
      ∃ j ∈ List.range 32, j ≠ i ∧ (s.language j).defined = true ∧ (s.language j).code = code := by
  simp [State.codeTaken, and_assoc]

theorem configured_iff (i : Nat) :
    s.configured i = true ↔
      ∃ b ∈ List.range' 1 16,
        (s.booth b).config.outputA = some i ∨ (s.booth b).config.outputB = some i ∨ i ∈ (s.booth b).config.accepted := by
  simp [State.configured, or_assoc]

theorem doLangDefine_refused {flags index c0 c1 c2 : Byte} {label : List Byte} {x : Result}
    (h : firstFailure (langDefineChecks s flags index [c0, c1, c2] label) = some x) :
    doLangDefine .ops (flags :: index :: c0 :: c1 :: c2 :: label) s = refuse s x := by
  unfold langDefineChecks at h
  simp only [firstFailure_cons, firstFailure_nil] at h
  by_cases hflags : 1 < flags.toNat
  · rw [if_pos (by simp [hflags])] at h
    simp only [doLangDefine, conditionOf_of_lt hflags, Option.some.inj h]
  cases hlabel : labelField label with
  | false =>
    rw [if_pos (by simp [hlabel])] at h
    simp only [doLangDefine, conditionOf_of_not_lt hflags, labelOf_eq, hlabel, Bool.false_eq_true, if_false,
      Option.some.inj h]
  | true =>
    simp only [doLangDefine, conditionOf_of_not_lt hflags, labelOf_eq, hlabel, if_true,
      conditionMet_eq_not_lostTo, Bool.not_not]
    refine refuse_of_check s (by simp [hflags, hlabel]) h fun h => ?_
    refine refuse_of_check s (by simp) h fun h => ?_
    refine refuse_of_check s (by simp [codeTaken_iff]) h fun h => ?_
    by_cases hdefined : (s.language index.toNat).defined = true
    · rw [if_neg (by simp [hdefined])]
      exact refuse_of_check s (by simp [hdefined]) h fun h => nomatch h
    · rw [if_neg (by simp [hdefined])] at h
      exact nomatch h

theorem doLangRemove_refused {index : Byte} {x : Result}
    (h : firstFailure (langRemoveChecks s index) = some x) : doLangRemove .ops [index] s = refuse s x := by
  unfold langRemoveChecks at h
  simp only [firstFailure_cons, firstFailure_nil] at h
  simp only [doLangRemove]
  refine refuse_of_check s (by simp) h fun h => ?_
  refine refuse_of_check s (by simp) h fun h => ?_
  refine refuse_of_check s ?_ h fun h => nomatch h
  simp only [Bool.or_eq_true, configured_iff, decide_eq_true_eq, Option.isSome_iff_ne_none, Nat.pos_iff_ne_zero, or_assoc]

/-- A LANG_DEFINE that passes its checks writes the record: a new one, or the label alone (R2). -/
theorem doLangDefine_writes {cond : Bool} {index c0 c1 c2 : Byte} {text : List Byte} (hindex : index.toNat ≤ 31)
    (hcode : [c0, c1, c2].all capital = true) (htext : text.all printable = true)
    (hallow : s.Allows cond .ops ⟨.language index.toNat, 0⟩)
    (hfree : ∀ j, j ≤ 31 → j ≠ index.toNat → (s.language j).defined = true → (s.language j).code ≠ [c0, c1, c2])
    (hsame : (s.language index.toNat).defined = true → (s.language index.toNat).code = [c0, c1, c2]) :
    doLangDefine .ops (flagByte cond :: index :: c0 :: c1 :: c2 :: textBytes 12 text) s =
      ((s.setLanguage index.toNat
          (if (s.language index.toNat).defined then { s.language index.toNat with label := text }
           else ⟨true, [c0, c1, c2], text, none, none, 0⟩)).consume cond .ops, .bare .ok) := by
  have htaken : s.codeTaken index.toNat [c0, c1, c2] = false := by
    rw [Bool.eq_false_iff, ne_eq, codeTaken_iff]
    rintro ⟨j, hj, hne, hdefined, hjcode⟩
    exact hfree j (by simpa [Nat.lt_succ_iff] using hj) hne hdefined hjcode
  simp only [doLangDefine, conditionOf_flagByte, labelOf_textBytes htext, conditionMet_of_allows s hallow, hcode, htaken]
  rw [if_neg (by simp [hindex]), if_neg (by simp), if_neg (by simp)]
  by_cases hdefined : (s.language index.toNat).defined = true
  · rw [if_neg (by simp [hdefined]), if_neg (by simp [hsame hdefined]), if_pos hdefined]
  · rw [if_pos (by simp [hdefined]), if_neg hdefined]

/-- Settles O3: each refusal is decided by the first check that fails, and an accepted command is one write of the language
record. -/
theorem languageCommandsWrite : Obligations.LanguageCommandsWrite := by
  refine ⟨fun s tag flags index c0 c1 c2 label ht hlabel => refusedBy_own (name := .langDefine) rfl ht rfl ?_
    fun x hx => doLangDefine_refused hx, fun s tag index ht => refusedBy_own (name := .langRemove) rfl ht rfl rfl
    fun x hx => doLangRemove_refused hx, ?_, ?_⟩
  · simp [CommandName.lengthOk, hlabel]
  · intro s cond tag index c0 c1 c2 text ht hindex hcode hlength htext hallow hfree hsame v
    have hlen : (textBytes 12 text).length = 12 := by simp [textBytes]; omega
    refine ⟨_, client_next (name := .langDefine) ht rfl (by simp [CommandName.lengthOk, hlen])
      (doLangDefine_writes hindex hcode htext hallow hfree hsame), ?_, fun j hj => ?_,
      answeredIf_after (told_setLanguage s index.toNat v), ?_⟩
    · simp [v]
    · simp [language_setLanguage, hj]
    · refine (after_frame _ _ _ _ _).trans ?_
      ext <;> simp
  · intro s tag index ht hindex hdefined hchannel howner hlisteners hconfig
    have hnamed : s.configured index.toNat = false := by
      rw [Bool.eq_false_iff, ne_eq, configured_iff]
      rintro ⟨b, hb, hnames⟩
      obtain ⟨ha, hb', hc⟩ := hconfig b (by simp at hb; omega) (by simp at hb; omega)
      rcases hnames with h | h | h
      exacts [ha h, hb' h, hc h]
    have hdo : doLangRemove .ops [index] s = (s.setLanguage index.toNat .undefined, .bare .ok) := by
      simp only [doLangRemove]
      rw [if_neg (Nat.not_lt.2 hindex), if_neg (by simp [hdefined]),
        if_neg (by simp [hchannel, howner, hlisteners, hnamed])]
    have hne : Language.undefined ≠ s.language index.toNat := fun e => by
      rw [← e] at hdefined
      exact nomatch hdefined
    refine ⟨_, client_next (name := .langRemove) ht rfl rfl hdo, ?_, fun j hj => ?_,
      answered_after (told_setLanguage_of_ne s index.toNat _ hne), ?_⟩
    · simp
    · simp [language_setLanguage, hj]
    · refine (after_frame _ _ _ _ _).trans ?_
      ext <;> simp

end Sys2Proof.Machine
end

section
/-!
PROOFS. Operations that visit one record after another, and the channel commands (R14 to R16), settled.
-/
namespace Sys2Proof.Machine

-- Visits

/-- An operation that visits the record of a number: what it makes of that record, the reservations it clears and the
notices it forms for the operations port follow from the record as it stands, and it writes no other. -/
structure Visits {α : Type} (get : State → Nat → α) (f : State → Nat → State) (new : Nat → α → α)
    (records : Nat → α → List RecordName) (notices : Nat → α → List Notice) : Prop where
  reads : ∀ s i j, get (f s i) j = if j = i then new i (get s i) else get s j
  told  : ∀ s i, Told s (f s i) (records i (get s i)) (toOps (notices i (get s i)))

section
variable {α : Type} {get : State → Nat → α} {f : State → Nat → State} {new : Nat → α → α}
  {records : Nat → α → List RecordName} {notices : Nat → α → List Notice}

theorem Visits.reads_foldl (h : Visits get f new records notices) {l : List Nat} (hl : l.Nodup) (s : State) (j : Nat) :
    get (l.foldl f s) j = if j ∈ l then new j (get s j) else get s j := foldl_reads h.reads hl s j

/-- A chain of visits clears and tells what each visit does, each by the record as it stood before the chain. -/
theorem Visits.told_foldl (h : Visits get f new records notices) {l : List Nat} (hl : l.Nodup) (s : State) :
    Told s (l.foldl f s) (l.flatMap fun i => records i (get s i)) (toOps (l.flatMap fun i => notices i (get s i))) := by
  induction l generalizing s with
  | nil => exact (Told.refl s).silent
  | cons i rest ih =>
    obtain ⟨hi, hrest⟩ := List.nodup_cons.1 hl
    have hsame : ∀ j ∈ rest, get (f s i) j = get s j := fun j hj =>
      (h.reads s i j).trans (if_neg fun (e : j = i) => hi (e ▸ hj))
    have hlater := ih hrest (f s i)
    rw [List.flatMap_congr fun j hj => congrArg (records j) (hsame j hj),
      List.flatMap_congr fun j hj => congrArg (notices j) (hsame j hj)] at hlater
    exact (h.told s i).trans_ops hlater

theorem flatMap_ite_singleton {β : Type} (p : Nat → Bool) (g : Nat → β) (l : List Nat) :
    (l.flatMap fun i => if p i then [g i] else []) = (l.filter p).map g := by
  induction l with
  | nil => rfl
  | cons i rest ih => cases hp : p i <;> simp [hp, ih]

theorem flatMap_ite {β : Type} (p : Nat → Bool) (g : Nat → List β) (l : List Nat) :
    (l.flatMap fun i => if p i then g i else []) = (l.filter p).flatMap g := by
  induction l with
  | nil => rfl
  | cons i rest ih => cases hp : p i <;> simp [hp, ih]

end

-- What touches the bindings alone

/-- But for the language table, the channel map, the ports and the feed link, `t` is as `s`. -/
def State.OnlyBindings (s t : State) : Prop :=
  t = { s with
    languages := t.languages, channels := t.channels, opsPort := t.opsPort, deskAPort := t.deskAPort,
    deskBPort := t.deskBPort, feed := t.feed }

theorem State.OnlyBindings.refl (s : State) : s.OnlyBindings s := rfl

theorem State.OnlyBindings.trans {s t u : State} (h : s.OnlyBindings t) (h' : t.OnlyBindings u) : s.OnlyBindings u := by
  unfold State.OnlyBindings at *
  rw [h] at h'
  exact h'

theorem State.OnlyBindings.foldl {α : Type} {s t : State} {f : State → α → State} (h : s.OnlyBindings t) (l : List α)
    (hf : ∀ (u : State) x, u.OnlyBindings (f u x)) : s.OnlyBindings (l.foldl f t) := by
  induction l generalizing t with
  | nil => exact h
  | cons x rest ih => exact ih (h.trans (hf t x))

variable (s : State)

theorem onlyBindings_setLanguage (i : Nat) (v : Language) : s.OnlyBindings (s.setLanguage i v) := by
  unfold State.OnlyBindings State.setLanguage State.clearReservations
  dsimp only
  split <;> rfl

theorem onlyBindings_setChannel (i : Nat) (v : Channel) : s.OnlyBindings (s.setChannel i v) := by
  unfold State.OnlyBindings State.setChannel State.clearReservations
  dsimp only
  split <;> rfl

theorem onlyBindings_setPort (p : Port) (q : PortState) : s.OnlyBindings (s.setPort p q) := by cases p <;> rfl

theorem onlyBindings_notify (p : Port) (n : Notice) : s.OnlyBindings (s.notify p n) := onlyBindings_setPort s p _

theorem onlyBindings_consume (c : Bool) (p : Port) : s.OnlyBindings (s.consume c p) := by
  cases c
  · exact .refl s
  · exact onlyBindings_setPort s p _

theorem onlyBindings_after (p : Port) (tag code : Byte) (r : Reply) : s.OnlyBindings (s.after p tag code r) := by
  unfold State.OnlyBindings
  refine (after_frame s p tag code r).trans ?_
  simp

-- CHAN_MAP (R14)

variable {s}

theorem channelOk_ne_zero {c : Byte} (h : s.channelOk c = true) : c.toNat ≠ 0 := by
  have := (channelOk_range h).1
  omega

theorem doChanMap_refused {channel language : Byte} {x : Result}
    (h : firstFailure (chanMapChecks s channel language) = some x) :
    doChanMap .ops [channel, language] s = refuse s x := by
  unfold chanMapChecks at h
  simp only [firstFailure_cons, firstFailure_nil] at h
  simp only [doChanMap]
  refine refuse_of_check s (by simp [badChannel_eq]) h fun h => ?_
  refine refuse_of_check s (by simp) h fun h => ?_
  exact refuse_of_check s (by simp [Option.isSome_iff_ne_none]) h fun h => nomatch h

/-- A FREE channel takes the bound state of a language: its reserved view changes. -/
theorem view_bound_ne {c : Channel} (hc : c.state = .free) (l : Nat) (o : Option Nat) :
    ({ c with state := boundState l o } : Channel).view ≠ c.view := by
  rw [ne_eq, view_setState c _ (by simp [hc]), hc]
  exact boundState_ne_free l o

/-- Settles O4: the channel and the language are written, and CHANNEL_CHANGED is sent. -/
theorem chanMapBinds : Obligations.ChanMapBinds := by
  refine ⟨fun s tag channel language ht => refusedBy_own (name := .chanMap) rfl ht rfl rfl
    fun x hx => doChanMap_refused hx, ?_⟩
  intro s tag channel language ht hok hl hdefined hnone hfree after
  let bound := s.setChannel channel.toNat after
  let named : Language := { s.language language.toNat with channel := some channel.toNat }
  have hdo : doChanMap .ops [channel, language] s =
      ((bound.setLanguage language.toNat named).notify .ops (.channelChanged channel.toNat after), .bare .ok) := by
    simp only [doChanMap]
    rw [if_neg (by simp [hok, hl]), if_neg (by simp [hdefined]), if_neg (by simp [hfree, hnone])]
    simp [bound, named, after]
  have hbound : Told s bound [.channel channel.toNat] (toOps []) :=
    (Told.refl s).silent.setChannel (view_bound_ne hfree _ _)
  have hnamed : Told s (bound.setLanguage language.toNat named) _ (toOps []) :=
    hbound.setLanguage (l := language.toNat) fun e => by
      have := congrArg Language.channel e
      simp [bound, named, hnone] at this
  refine ⟨_, client_next (name := .chanMap) ht rfl rfl hdo, ?_, fun c hc => ?_, ?_, fun l hl => ?_,
    answered_after (hnamed.notifyOps _), ?_⟩
  · simp [bound]
  · simp [bound, channel_setChannel, hc]
  · simp [named]
  · simp [bound, language_setLanguage, hl]
  · exact (((onlyBindings_setChannel s _ _).trans (onlyBindings_setLanguage _ _ _)).trans
      (onlyBindings_notify _ _ _)).trans (onlyBindings_after _ _ _ _ _)

-- CHAN_UNMAP (R15)

theorem target_of_language {v : ChannelState} {l : Nat} (h : v.language = some l) : v.target = 0 := by
  cases v with
  | mapped _ | live _ => rfl
  | free | redirect _ _ => exact nomatch h

/-- The end of the redirect of a channel to `c`, if it has one, is a visit of the channel. -/
theorem visits_endRedirect {c : Nat} (hc : c ≠ 0) :
    Visits State.channel (fun s x => if (s.channel x).state.target = c then s.endRedirect x .unmapped else s)
      (fun _ v => if v.state.target = c then { v with state := .free } else v)
      (fun x v => if decide (v.state.target = c) then [.channel x] else [])
      (fun x v => if decide (v.state.target = c) then
        [.channelChanged x { v with state := .free }, .redirectEnded x c .unmapped] else []) := by
  have hredirect : ∀ {v : ChannelState}, v.target = c → ∃ hold, v = .redirect c hold := by
    intro v hv
    cases v with
    | redirect t k => exact ⟨k, hv ▸ rfl⟩
    | free | mapped _ | live _ => exact absurd hv.symm hc
  constructor
  · intro s x y
    split
    next ht =>
      obtain ⟨hold, hs⟩ := hredirect ht
      rw [channel_endRedirect s .unmapped hs]
    next => split <;> simp_all
  · intro s x
    by_cases ht : (s.channel x).state.target = c
    · obtain ⟨hold, hs⟩ := hredirect ht
      simp only [ht, if_true, decide_true]
      exact told_endRedirect s .unmapped hs
    · simp only [ht, if_false, decide_false, Bool.false_eq_true]
      exact (Told.refl s).silent

theorem redirectsTo_mem {c x : Nat} : x ∈ redirectsTo s c ↔ (1 ≤ x ∧ x ≤ 24) ∧ (s.channel x).state.target = c := by
  simp only [redirectsTo, List.mem_filter, List.mem_range'_1, decide_eq_true_eq]
  omega

theorem told_endRedirectsTo (s : State) {c : Nat} (hc : c ≠ 0) :
    Told s (s.endRedirectsTo c) ((redirectsTo s c).map .channel)
      (toOps ((redirectsTo s c).flatMap fun x =>
        [.channelChanged x { s.channel x with state := .free }, .redirectEnded x c .unmapped])) := by
  have h := (visits_endRedirect hc).told_foldl (l := List.range' 1 24) List.nodup_range' s
  rwa [flatMap_ite_singleton (fun x => decide ((s.channel x).state.target = c)),
    flatMap_ite (fun x => decide ((s.channel x).state.target = c))] at h

theorem channel_endRedirectsTo (s : State) {c : Nat} (hc : c ≠ 0) (x : Nat) :
    (s.endRedirectsTo c).channel x = if x ∈ redirectsTo s c then { s.channel x with state := .free } else s.channel x := by
  refine ((visits_endRedirect hc).reads_foldl List.nodup_range' s x).trans ?_
  simp only [redirectsTo, List.mem_filter, decide_eq_true_eq]
  by_cases hx : x ∈ List.range' 1 24 <;> simp [hx]

theorem onlyBindings_endRedirect (s : State) (x : Nat) (cause : Cause) : s.OnlyBindings (s.endRedirect x cause) := by
  unfold State.endRedirect
  split
  · exact ((onlyBindings_setChannel s _ _).trans (onlyBindings_notify _ _ _)).trans (onlyBindings_notify _ _ _)
  · exact .refl s

theorem onlyBindings_endRedirectsTo (s : State) (c : Nat) : s.OnlyBindings (s.endRedirectsTo c) :=
  (State.OnlyBindings.refl s).foldl _ fun u x => by
    split
    · exact onlyBindings_endRedirect u x _
    · exact .refl u

theorem endRedirect_languages (s : State) (x : Nat) (cause : Cause) : (s.endRedirect x cause).languages = s.languages := by
  rw [endRedirect_frame]

theorem endRedirectsTo_language (s : State) (c l : Nat) : (s.endRedirectsTo c).language l = s.language l := by
  refine foldl_keeps (get := fun t => t.language l) (fun t x => ?_) _ s
  split
  · exact congrArg (tabGet .undefined · l) (endRedirect_languages t x .unmapped)
  · rfl

theorem doChanUnmap_refused {flags channel force : Byte} {x : Result}
    (h : firstFailure (chanUnmapChecks s flags channel force) = some x) :
    doChanUnmap .ops [flags, channel, force] s = refuse s x := by
  unfold chanUnmapChecks at h
  simp only [firstFailure_cons, firstFailure_nil] at h
  by_cases hflags : 1 < flags.toNat
  · rw [if_pos (by simp [hflags])] at h
    simp only [doChanUnmap, conditionOf_of_lt hflags, Option.some.inj h]
  by_cases hforce : 1 < force.toNat
  · rw [if_pos (by simp [hforce])] at h
    simp only [doChanUnmap, conditionOf_of_not_lt hflags, flagOf_of_lt hforce, Option.some.inj h]
  simp only [doChanUnmap, conditionOf_of_not_lt hflags, flagOf_of_not_lt hforce, conditionMet_eq_not_lostTo, Bool.not_not]
  refine refuse_of_check s (by simp [hflags, hforce, badChannel_eq]) h fun h => ?_
  refine refuse_of_check s (by simp) h fun h => ?_
  have hbit : force = 0#8 ↔ ¬ force = 1#8 := by bv_omega
  cases hbound : (s.channel channel.toNat).state.language with
  | none =>
    rw [hbound, if_pos (by simp)] at h
    rw [← Option.some.inj h]
  | some l =>
    rw [hbound] at h
    exact refuse_of_check s (by simp [hbit]) h fun h => nomatch h

/-- Settles O5: the channel is freed, its language loses it, and the redirects to it end one after another
(`told_endRedirectsTo`). -/
theorem chanUnmapFrees : Obligations.ChanUnmapFrees := by
  refine ⟨fun s tag flags channel force ht => refusedBy_own (name := .chanUnmap) rfl ht rfl rfl
    fun x hx => doChanUnmap_refused hx, ?_⟩
  intro s cond force tag channel l ht hok hallow hbound hnamed hforce c freed
  let unbound := s.setChannel c (freed c)
  let unnamed := unbound.setLanguage l { s.language l with channel := none }
  let told := unnamed.notify .ops (.channelChanged c (freed c))
  have hc : c ≠ 0 := channelOk_ne_zero hok
  have hdo : doChanUnmap .ops [flagByte cond, channel, if force then 0x01 else 0x00] s =
      ((told.endRedirectsTo c).consume cond .ops, .bare .ok) := by
    simp only [doChanUnmap, conditionOf_flagByte, flagOf_ite, conditionMet_of_allows s hallow]
    rw [if_neg (by simp [hok]), if_neg (by simp), hbound]
    dsimp only
    rw [if_neg (by rcases hforce with h | h <;> simp [h])]
    simp [told, unnamed, unbound, freed, c]
  have hview : (freed c).view ≠ (s.channel c).view := by
    intro e
    have hlanguage := (view_state e).1
    rw [show (s.channel c).state.language = some l from hbound] at hlanguage
    exact nomatch hlanguage
  have htold : Told s told (([] ++ [.channel c]) ++ [.language l]) (toOps [.channelChanged c (freed c)]) := by
    refine (((Told.refl s).silent.setChannel hview).setLanguage fun e => hnamed ?_).notifyOps _
    have := congrArg Language.channel e
    simpa [unbound] using this.symm
  have htarget : ∀ x, (told.channel x).state.target = c ↔ (s.channel x).state.target = c := by
    intro x
    have hbase : (s.channel c).state.target ≠ c := fun e => hc (e.symm.trans (target_of_language hbound))
    simp only [told, unnamed, unbound, notify_channel, setLanguage_channel, channel_setChannel]
    split
    next hx => subst hx; exact ⟨fun h => absurd h.symm hc, fun h => absurd h hbase⟩
    next => rfl
  have hsame : redirectsTo told c = redirectsTo s c := by
    unfold redirectsTo
    exact List.filter_congr fun x _ => by simp only [htarget]
  have hrest : ∀ x, x ≠ c → told.channel x = s.channel x := fun x hx => by
    simp [told, unnamed, unbound, channel_setChannel, hx]
  have hmem : ∀ x ∈ redirectsTo s c, x ≠ c := by
    intro x hx e
    have htarget := (redirectsTo_mem.1 hx).2
    rw [e, target_of_language hbound] at htarget
    exact hc htarget.symm
  have hends := told_endRedirectsTo told hc
  rw [hsame, List.flatMap_congr (g := fun x => [.channelChanged x (freed x), .redirectEnded x c .unmapped])
    fun x hx => by rw [hrest x (hmem x hx)]] at hends
  refine ⟨_, client_next (name := .chanUnmap) ht rfl rfl hdo, fun x => ?_, ?_, fun k hk => ?_,
    answeredIf_after (htold.trans_ops hends), ?_⟩
  · rw [after_channel, consume_channel, channel_endRedirectsTo told hc, hsame]
    by_cases hx : x = c
    · subst hx
      rw [if_neg fun h => hmem _ h rfl, if_pos (.inl rfl)]
      simp [told, unnamed, unbound]
    · simp [hrest x hx, hx, freed]
  · rw [after_language, consume_language, endRedirectsTo_language]
    simp [told, unnamed]
  · rw [after_language, consume_language, endRedirectsTo_language]
    simp [told, unnamed, unbound, language_setLanguage, hk]
  · have hwrites : s.OnlyBindings told :=
      ((onlyBindings_setChannel s _ _).trans (onlyBindings_setLanguage _ _ _)).trans (onlyBindings_notify _ _ _)
    exact ((hwrites.trans (onlyBindings_endRedirectsTo told c)).trans (onlyBindings_consume _ _ _)).trans
      (onlyBindings_after _ _ _ _ _)

-- CHAN_MOVE (R16)

/-- A redirect to `a` that is retargeted to another channel is a visit of the channel. -/
theorem visits_retarget {a b : Nat} (ha : a ≠ 0) (hab : a ≠ b) :
    Visits State.channel (fun s x => s.retarget a b x)
      (fun _ v => if v.state.target = a then { v with state := .redirect b v.state.hold } else v)
      (fun x v => if decide (v.state.target = a) then [.channel x] else [])
      (fun x v => if decide (v.state.target = a) then
        [.channelChanged x { v with state := .redirect b v.state.hold }] else []) := by
  have hother : ∀ (s : State) (x : Nat), (s.channel x).state.target ≠ a → s.retarget a b x = s := by
    intro s x ht
    unfold State.retarget
    split
    next t k hs => rw [hs] at ht; exact if_neg ht
    next => rfl
  have hto : ∀ (s : State) (x : Nat), (s.channel x).state.target = a →
      s.retarget a b x =
        (s.setChannel x { s.channel x with state := .redirect b (s.channel x).state.hold }).notify .ops
          (.channelChanged x { s.channel x with state := .redirect b (s.channel x).state.hold }) := by
    intro s x ht
    unfold State.retarget
    cases hs : (s.channel x).state with
    | redirect t k =>
      rw [hs] at ht
      simp only [if_pos (show t = a from ht)]
      simp [ChannelState.hold]
    | free | mapped _ | live _ =>
      rw [hs] at ht
      exact absurd ht.symm ha
  constructor
  · intro s x y
    by_cases ht : (s.channel x).state.target = a
    · simp [hto s x ht, channel_setChannel, ht]
    · rw [hother s x ht]
      split <;> simp_all
  · intro s x
    by_cases ht : (s.channel x).state.target = a
    · rw [hto s x ht]
      simp only [ht, decide_true, if_true]
      refine ((Told.refl s).silent.setChannel fun e => ?_).notifyOps _
      exact hab (ht.symm.trans (view_state e).2.symm)
    · rw [hother s x ht]
      simp only [ht, decide_false, Bool.false_eq_true, if_false]
      exact (Told.refl s).silent

theorem doChanMove_refused {flags a b : Byte} {x : Result}
    (h : firstFailure (chanMoveChecks s flags a b) = some x) : doChanMove .ops [flags, a, b] s = refuse s x := by
  unfold chanMoveChecks at h
  simp only [firstFailure_cons, firstFailure_nil] at h
  by_cases hflags : 1 < flags.toNat
  · rw [if_pos (by simp [hflags])] at h
    simp only [doChanMove, conditionOf_of_lt hflags, Option.some.inj h]
  have hsame : a.toNat = b.toNat ↔ a = b := BitVec.toNat_inj
  simp only [doChanMove, conditionOf_of_not_lt hflags, conditionMet_eq_not_lostTo, Bool.not_not]
  refine refuse_of_check s (by simp [hflags, badChannel_eq, hsame, or_assoc]) h fun h => ?_
  refine refuse_of_check s (by simp) h fun h => ?_
  cases hbound : (s.channel a.toNat).state.language with
  | none =>
    rw [hbound, if_pos (by simp)] at h
    rw [← Option.some.inj h]
  | some l =>
    rw [hbound] at h
    exact refuse_of_check s (by simp) h fun h => nomatch h

theorem onlyBindings_retarget (s : State) (a b x : Nat) : s.OnlyBindings (s.retarget a b x) := by
  unfold State.retarget
  split
  · split
    · rw [setChannelState_eq, channelChanged_eq]
      exact (onlyBindings_setChannel s _ _).trans (onlyBindings_notify _ _ _)
    · exact .refl s
  · exact .refl s

theorem retarget_language (s : State) (a b x l : Nat) : (s.retarget a b x).language l = s.language l := by
  unfold State.retarget
  split
  · split <;> simp
  · rfl

/-- Settles O6: the language and the two channels are written, and the redirects to the old channel are retargeted one after
another (`visits_retarget`). -/
theorem chanMoveMoves : Obligations.ChanMoveMoves := by
  refine ⟨fun s tag flags a b ht => refusedBy_own (name := .chanMove) rfl ht rfl rfl
    fun x hx => doChanMove_refused hx, ?_⟩
  intro s cond tag aByte bByte l ht haok hbok hne hallow hbound hnamed hfree a b moved
  have ha : a ≠ 0 := channelOk_ne_zero haok
  have hb : b ≠ 0 := channelOk_ne_zero hbok
  have hab : a ≠ b := fun e => hne (BitVec.eq_of_toNat_eq e)
  have hmovedB : moved b = { s.channel b with state := boundState l (s.language l).owner } := if_pos rfl
  have hmovedA : moved a = { s.channel a with state := .redirect b s.profile.redirectHold } := by
    simp only [moved, if_neg hab, if_true]
  let boundB := s.setChannel b (moved b)
  let named := boundB.setLanguage l { s.language l with channel := some b }
  let left := named.setChannel a (moved a)
  let told := (left.notify .ops (.channelChanged b (moved b))).notify .ops (.channelChanged a (moved a))
  have hdo : doChanMove .ops [flagByte cond, aByte, bByte] s =
      (((List.range' 1 24).foldl (fun s x => s.retarget a b x) told).consume cond .ops, .bare .ok) := by
    simp only [doChanMove, conditionOf_flagByte, conditionMet_of_allows s hallow]
    have hbytes : ¬ aByte.toNat = bByte.toNat := hab
    rw [if_neg (by simp [haok, hbok, hbytes]), if_neg (by simp), hbound]
    dsimp only
    rw [if_neg (by simp [hfree])]
    simp [told, left, named, boundB, hmovedA, hmovedB, a, b, channel_setChannel, hbytes, Ne.symm hbytes]
  have htold : Told s told ((([] ++ [.channel b]) ++ [.language l]) ++ [.channel a])
      (toOps [.channelChanged b (moved b), .channelChanged a (moved a)]) := by
    refine (((((Told.refl s).silent.setChannel ?_).setLanguage ?_).setChannel ?_).notifyOps _).notifyOps _
    · rw [hmovedB]
      exact view_bound_ne hfree _ _
    · intro e
      have := congrArg Language.channel e
      simp only [setChannel_language, hnamed, Option.some.injEq] at this
      exact hab this.symm
    · intro e
      have hkept : named.channel a = s.channel a := by simp [named, boundB, channel_setChannel, hab]
      have hlanguage := (view_state e).1
      rw [hkept, hmovedA, show (s.channel a).state.language = some l from hbound] at hlanguage
      exact nomatch hlanguage
  have hrest : ∀ x, x ≠ a → x ≠ b → told.channel x = s.channel x := fun x hxa hxb => by
    simp [told, left, named, boundB, channel_setChannel, hxa, hxb]
  have htoldA : told.channel a = moved a := by simp [told, left]
  have htoldB : told.channel b = moved b := by
    simp [told, left, named, boundB, channel_setChannel, Ne.symm hab]
  have htarget : ∀ x, (told.channel x).state.target = a ↔ (s.channel x).state.target = a := by
    intro x
    by_cases hxa : x = a
    · rw [hxa, htoldA, hmovedA, target_of_language hbound]
      exact ⟨fun h => absurd h.symm hab, fun h => absurd h.symm ha⟩
    by_cases hxb : x = b
    · rw [hxb, htoldB, hmovedB, show (s.channel b).state = .free from hfree, boundState_target]
      rfl
    · rw [hrest x hxa hxb]
  have hmem : ∀ x ∈ redirectsTo s a, x ≠ a ∧ x ≠ b := by
    intro x hx
    have htarget := (redirectsTo_mem.1 hx).2
    refine ⟨fun e => ?_, fun e => ?_⟩
    · rw [e, target_of_language hbound] at htarget
      exact ha htarget.symm
    · rw [e, show (s.channel b).state = .free from hfree] at htarget
      exact ha htarget.symm
  have hmoved : ∀ x ∈ redirectsTo s a, moved x = { s.channel x with state := .redirect b (s.channel x).state.hold } :=
    fun x hx => by simp only [moved, if_neg (hmem x hx).1, if_neg (hmem x hx).2, if_pos hx]
  have hretold := (visits_retarget ha hab).told_foldl (l := List.range' 1 24) List.nodup_range' told
  simp only [htarget, flatMap_ite_singleton (fun x => decide ((s.channel x).state.target = a))] at hretold
  rw [← redirectsTo, List.map_congr_left (g := fun x => Notice.channelChanged x (moved x)) fun x hx => by
    rw [hmoved x hx, hrest x (hmem x hx).1 (hmem x hx).2]] at hretold
  have hkeep : ∀ k, ((List.range' 1 24).foldl (fun s x => s.retarget a b x) told).language k = told.language k := fun k =>
    foldl_keeps (get := fun t => t.language k) (fun t x => retarget_language t a b x k) _ told
  refine ⟨_, client_next (name := .chanMove) ht rfl rfl hdo, fun x => ?_, ?_, fun k hk => ?_,
    answeredIf_after (htold.trans_ops hretold), ?_⟩
  · rw [after_channel, consume_channel, (visits_retarget ha hab).reads_foldl List.nodup_range']
    by_cases hx : x ∈ redirectsTo s a
    · have htargeted : (s.channel x).state.target = a := (redirectsTo_mem.1 hx).2
      have hrange : x ∈ List.range' 1 24 := (List.mem_filter.1 hx).1
      rw [if_pos hrange, hmoved x hx, hrest x (hmem x hx).1 (hmem x hx).2, if_pos htargeted]
    · have hkept : told.channel x = moved x := by
        by_cases hxa : x = a
        · rw [hxa, htoldA]
        by_cases hxb : x = b
        · rw [hxb, htoldB]
        · rw [hrest x hxa hxb]
          simp only [moved, if_neg hxa, if_neg hxb, if_neg hx]
      split
      next hrange =>
        rw [if_neg fun h => hx (List.mem_filter.2 ⟨hrange, decide_eq_true ((htarget x).1 h)⟩), hkept]
      next => exact hkept
  · rw [after_language, consume_language, hkeep]
    simp [told, left, named]
  · rw [after_language, consume_language, hkeep]
    simp [told, left, named, boundB, language_setLanguage, hk]
  · have hwrites : s.OnlyBindings told :=
      ((((onlyBindings_setChannel s _ _).trans (onlyBindings_setLanguage _ _ _)).trans
        (onlyBindings_setChannel _ _ _)).trans (onlyBindings_notify _ _ _)).trans (onlyBindings_notify _ _ _)
    exact ((hwrites.foldl _ fun u x => onlyBindings_retarget u a b x).trans (onlyBindings_consume _ _ _)).trans
      (onlyBindings_after _ _ _ _ _)

end Sys2Proof.Machine
end

section
/-!
PROOFS. What touches the hall alone, what a change of owner and a seat going on or off the air do (R6 to R12, R34, R35, R53).
-/
namespace Sys2Proof.Machine

variable {s : State}

-- What touches the hall alone

/-- But for the languages, channels, booths, ports and the feed link, `t` is as `s`. -/
def State.OnlyHall (s t : State) : Prop :=
  t = { s with
    languages := t.languages, channels := t.channels, booths := t.booths, opsPort := t.opsPort,
    deskAPort := t.deskAPort, deskBPort := t.deskBPort, feed := t.feed }

theorem State.OnlyHall.trans {s t u : State} (h : s.OnlyHall t) (h' : t.OnlyHall u) : s.OnlyHall u := by
  unfold State.OnlyHall at *
  rw [h] at h'
  exact h'

theorem State.OnlyBooths.hall {s t : State} (h : s.OnlyBooths t) : s.OnlyHall t := by
  unfold State.OnlyBooths at h
  unfold State.OnlyHall
  rw [h]

theorem State.OnlyBindings.hall {s t : State} (h : s.OnlyBindings t) : s.OnlyHall t := by
  unfold State.OnlyBindings at h
  unfold State.OnlyHall
  rw [h]

theorem State.OnlyBooths.foldl {α : Type} {s t : State} {f : State → α → State} (h : s.OnlyBooths t) (l : List α)
    (hf : ∀ (u : State) x, u.OnlyBooths (f u x)) : s.OnlyBooths (l.foldl f t) := by
  induction l generalizing t with
  | nil => exact h
  | cons x rest ih => exact ih (h.trans (hf t x))

theorem onlyBooths_setPort (s : State) (p : Port) (q : PortState) : s.OnlyBooths (s.setPort p q) := by cases p <;> rfl

theorem onlyBooths_notify (s : State) (p : Port) (n : Notice) : s.OnlyBooths (s.notify p n) := onlyBooths_setPort s p _

theorem onlyBooths_consume (s : State) (c : Bool) (p : Port) : s.OnlyBooths (s.consume c p) := by
  cases c
  · exact .refl s
  · exact onlyBooths_setPort s p _

theorem onlyBooths_after (s : State) (p : Port) (tag code : Byte) (r : Reply) : s.OnlyBooths (s.after p tag code r) := by
  unfold State.OnlyBooths
  refine (after_frame s p tag code r).trans ?_
  simp

theorem onlyBooths_flashLamp (s : State) (b : Nat) (lamp : FlashLamp) : s.OnlyBooths (s.flashLamp b lamp) :=
  onlyBooths_setBooth s b _

theorem onlyBindings_setOwner (s : State) (l : Nat) (o : Option Nat) : s.OnlyBindings (s.setOwner l o) := by
  unfold State.OnlyBindings
  refine (setOwner_frame s l o).trans ?_
  rw [show (s.setOwner l o).feed = s.feed by rw [setOwner_frame]]

theorem onlyBindings_release (s : State) (b : Nat) (x : Option Nat) : s.OnlyBindings (s.release b x) := by
  unfold State.release
  split
  · exact .refl s
  · split
    · exact onlyBindings_setOwner s _ _
    · exact .refl s

-- A write of an owner field (R9, R11, R12)

/-- A channel that takes another bound state takes another reserved view. -/
theorem view_boundState_ne {c : Channel} {l : Nat} {o : Option Nat} (h : c.state ≠ boundState l o) :
    ({ c with state := boundState l o } : Channel).view ≠ c.view := by
  intro e
  have hlanguage : c.state.language = some l := (view_state e).1.symm.trans (boundState_language l o)
  refine h ((view_setState c _ fun t k hredirect => ?_).1 e).symm
  rw [hredirect] at hlanguage
  exact nomatch hlanguage

theorem told_followOwner (s : State) (l : Nat) :
    Told s (s.followOwner l)
      (match (s.language l).channel with
       | none => []
       | some c => if (s.channel c).state = boundState l (s.language l).owner then [] else [.channel c])
      (toOps
        (match (s.language l).channel with
         | none => []
         | some c =>
           if (s.channel c).state = boundState l (s.language l).owner then []
           else [.channelChanged c { s.channel c with state := boundState l (s.language l).owner }])) := by
  unfold State.followOwner
  cases (s.language l).channel with
  | none => exact (Told.refl s).silent
  | some c =>
    dsimp only
    split
    next => exact (Told.refl s).silent
    next hstate =>
      have hmoved := (Told.refl s).silent.setChannel (view_boundState_ne hstate)
      simpa using hmoved.notifyOps (.channelChanged c { s.channel c with state := boundState l (s.language l).owner })

theorem told_setOwner (s : State) (l : Nat) (o : Option Nat) :
    Told s (s.setOwner l o) (s.ownerRecords l o) (toOps (s.ownerNotices l o)) := by
  unfold State.setOwner State.ownerRecords State.ownerNotices
  by_cases howner : (s.language l).owner = o
  · simpa only [howner, if_true] using (Told.refl s).silent
  · have hwritten : Told s _ [.language l] (toOps [.ownerChanged l (s.language l).owner o]) :=
      ((Told.refl s).silent.setLanguage (l := l) (v := { s.language l with owner := o })
        fun e => howner (congrArg Language.owner e).symm).notifyOps (.ownerChanged l (s.language l).owner o)
    have hfollowed := hwritten.trans_ops (told_followOwner _ l)
    simp only [notify_language, language_setLanguage_same, notify_channel, setLanguage_channel] at hfollowed
    simp only [howner, if_false]
    exact hfollowed

theorem acquire_of_free {b l : Nat} (h : (s.language l).owner = none ∨ (s.language l).owner = some b) :
    s.acquire b l = some (s.setOwner l (some b)) := by
  unfold State.acquire
  rcases h with h | h
  · rw [h]
  · rw [h]
    simp [State.setOwner, h]

theorem acquire_of_owned {b l o : Nat} (h : (s.language l).owner = some o) (hne : o ≠ b) : s.acquire b l = none := by
  unfold State.acquire
  rw [h]
  exact if_neg hne

theorem told_release (s : State) (b : Nat) (x : Option Nat) :
    Told s (s.release b x) (s.releaseRecords b x) (toOps (s.releaseNotices b x)) := by
  unfold State.release State.releaseRecords State.releaseNotices
  cases x with
  | none => exact (Told.refl s).silent
  | some l =>
    dsimp only
    split
    · exact told_setOwner s l none
    · exact (Told.refl s).silent

theorem channel_release (s : State) (b : Nat) (x : Option Nat) (c : Nat) :
    (s.release b x).channel c = s.releasedChannel b x c := by
  unfold State.release State.releasedChannel
  cases x with
  | none => rfl
  | some l =>
    dsimp only
    split
    · exact channel_setOwner s l none c
    · rfl

theorem released_release (s : State) (b : Nat) (x : Option Nat) : s.Released (s.release b x) b x := by
  intro k
  unfold State.release
  cases x with
  | none => simp
  | some l =>
    dsimp only
    split
    next howner =>
      rw [language_setOwner]
      by_cases hk : k = l
      · subst hk; simp [howner]
      · simp [hk, Ne.symm hk]
    next howner => rw [if_neg fun ⟨e, h⟩ => howner (by rwa [Option.some.inj e])]

-- What a booth's record brings to its owner's language is told from the languages and channels alone.

section
variable {t : State} (hl : ∀ l, t.language l = s.language l) (hc : ∀ c, t.channel c = s.channel c)
include hl hc

theorem ownerRecords_congr (l : Nat) (o : Option Nat) : t.ownerRecords l o = s.ownerRecords l o := by
  simp only [State.ownerRecords, hl, hc]

theorem ownerNotices_congr (l : Nat) (o : Option Nat) : t.ownerNotices l o = s.ownerNotices l o := by
  simp only [State.ownerNotices, hl, hc]

theorem ownerChannel_congr (l : Nat) (o : Option Nat) (c : Nat) : t.ownerChannel l o c = s.ownerChannel l o c := by
  simp only [State.ownerChannel, hl, hc]

theorem releaseRecords_congr (b : Nat) (x : Option Nat) : t.releaseRecords b x = s.releaseRecords b x := by
  simp only [State.releaseRecords, hl, ownerRecords_congr hl hc]

theorem releaseNotices_congr (b : Nat) (x : Option Nat) : t.releaseNotices b x = s.releaseNotices b x := by
  simp only [State.releaseNotices, hl, ownerNotices_congr hl hc]

theorem releasedChannel_congr (b : Nat) (x : Option Nat) (c : Nat) :
    t.releasedChannel b x c = s.releasedChannel b x c := by
  simp only [State.releasedChannel, hl, hc, ownerChannel_congr hl hc]

end

-- Booth records

theorem Told.setBooth {t : State} {rs : List RecordName} {ns : List Notice} (h : Told s t rs (toOps ns)) {b : Nat}
    {v : Booth} (hv : v.view ≠ (t.booth b).view) : Told s (t.setBooth b v) (rs ++ [.booth b]) (toOps ns) := by
  have hset := told_setBooth t b v
  rw [if_neg hv] at hset
  exact h.then_silent hset

/-- The reserved view holds the states of the seats 1 to 3. -/
theorem view_ne_of_seat {v w : Booth} {n : Nat} (h1 : 1 ≤ n) (h3 : n ≤ 3)
    (h : (w.seat n).state ≠ (v.seat n).state) : w.view ≠ v.view := by
  intro e
  have hseats := congrArg BoothView.seats e
  simp only [Booth.view, List.cons.injEq] at hseats
  obtain ⟨hone, htwo, hthree, -⟩ := hseats
  have hn : n = 1 ∨ n = 2 ∨ n = 3 := by omega
  rcases hn with rfl | rfl | rfl
  · exact h hone
  · exact h htwo
  · exact h hthree

theorem onAir_iff {n : Seat} : n.onAir = true ↔ n.state = .live ∨ n.state = .muted := by simp [Seat.onAir]

theorem onAirSeat_some {v : Booth} {n : Nat} (h : v.onAirSeat = some n) :
    1 ≤ n ∧ n ≤ 3 ∧ (v.seat n).onAir = true := by
  have hmem := List.mem_of_find?_eq_some h
  simp only [List.mem_cons, List.not_mem_nil, or_false] at hmem
  have hon := List.find?_some (p := fun k => (v.seat k).onAir) h
  exact ⟨by omega, by omega, hon⟩

theorem onAirSeat_none {v : Booth} {n : Nat} (h : v.onAirSeat = none) (h1 : 1 ≤ n) (h3 : n ≤ 3) :
    (v.seat n).onAir = false := by
  have hall := List.find?_eq_none.1 h n (by simp; omega)
  simpa using hall

theorem seatOk_iff {n : Nat} : seatOk n = true ↔ 1 ≤ n ∧ n ≤ 3 := by simp [seatOk]

-- Seats going on and off the air (R34, R35, R53)

/-- What a booth that goes on air with a language it may acquire brings about (R34). -/
theorem goOnAir_of_free {b n l : Nat} (h : (s.language l).owner = none ∨ (s.language l).owner = some b) :
    s.goOnAir b n l =
      some ((s.setOwner l (some b)).setBooth b ((s.booth b).setSeat n ((s.booth b).seat n).on)) := by
  unfold State.goOnAir
  rw [acquire_of_free h]
  simp

theorem goOnAir_of_owned {b n l o : Nat} (h : (s.language l).owner = some o) (hne : o ≠ b) :
    s.goOnAir b n l = none := by
  unfold State.goOnAir
  rw [acquire_of_owned h hne]

/-- Seat `n` of booth `b` is on air in `t`, with language `l` acquired (R34). -/
structure OnAir (s t : State) (b n l : Nat) : Prop where
  booth     : t.booth b = (s.booth b).setSeat n { (s.booth b).seat n with state := .live, turn := 0, overdue := false }
  others    : ∀ x, x ≠ b → t.booth x = s.booth x
  language  : t.language l = { s.language l with owner := some b }
  languages : ∀ k, k ≠ l → t.language k = s.language k
  channels  : ∀ c, t.channel c = s.ownerChannel l (some b) c
  told      : Told s t (s.ownerRecords l (some b) ++ [.booth b]) (toOps (s.ownerNotices l (some b)))
  hall      : s.OnlyHall t

theorem onAir_goOnAir {b n l : Nat} (h1 : 1 ≤ n) (h3 : n ≤ 3) (hoff : ((s.booth b).seat n).state = .off) :
    OnAir s ((s.setOwner l (some b)).setBooth b ((s.booth b).setSeat n ((s.booth b).seat n).on)) b n l where
  booth := by simp [Seat.on]
  others x hx := by simp [booth_setBooth, hx]
  language := by simp [language_setOwner]
  languages k hk := by simp [language_setOwner, hk]
  channels c := by simp [channel_setOwner]
  told := (told_setOwner s l (some b)).setBooth (view_ne_of_seat h1 h3 (by simp [Seat.on, hoff]))
  hall := (onlyBindings_setOwner s l _).hall.trans (onlyBooths_setBooth _ _ _).hall

/-- Seat `n` of booth `b` is off the air in `t`, with its language released (R35). -/
structure OffAir (s t : State) (b n : Nat) : Prop where
  booth    : t.booth b =
    { (s.booth b).setSeat n { (s.booth b).seat n with state := .off, overdue := false } with handover := none }
  others   : ∀ x, x ≠ b → t.booth x = s.booth x
  released : s.Released t b (s.booth b).language
  channels : ∀ c, t.channel c = s.releasedChannel b (s.booth b).language c
  told     : Told s t (.booth b :: s.releaseRecords b (s.booth b).language)
    (toOps (s.releaseNotices b (s.booth b).language))
  hall     : s.OnlyHall t

theorem offAir_goOffAir {b n : Nat} (h1 : 1 ≤ n) (h3 : n ≤ 3) (hon : ((s.booth b).seat n).onAir = true) :
    OffAir s (s.goOffAir b n (s.booth b).language) b n where
  booth := by simp [State.goOffAir, Seat.offAir]
  others x hx := by simp [State.goOffAir, booth_setBooth, hx]
  released k := by
    have h := released_release (s.setBooth b { (s.booth b).setSeat n ((s.booth b).seat n).offAir with handover := none })
      b (s.booth b).language k
    simp only [setBooth_language] at h
    exact h
  channels c := (channel_release _ _ _ _).trans
    (releasedChannel_congr (fun l => setBooth_language ..) (fun c => setBooth_channel ..) _ _ _)
  told := by
    have hview : ({ (s.booth b).setSeat n ((s.booth b).seat n).offAir with handover := none } : Booth).view ≠
        (s.booth b).view := by
      refine view_ne_of_seat (n := n) h1 h3 ?_
      have hstate : ((s.booth b).seat n).state ≠ .off := by
        rcases onAir_iff.1 hon with h | h <;> simp [h]
      intro e
      exact hstate (e.symm.trans (congrArg Seat.state (seat_setSeat_same (s.booth b) n _)))
    have h := ((Told.refl s).silent.setBooth hview).trans_ops (told_release _ b (s.booth b).language)
    rwa [releaseRecords_congr (s := s) (fun l => setBooth_language ..) (fun c => setBooth_channel ..),
      releaseNotices_congr (s := s) (fun l => setBooth_language ..) (fun c => setBooth_channel ..)] at h
  hall := (onlyBooths_setBooth s _ _).hall.trans (onlyBindings_release _ _ _).hall

theorem told_transfer {b o n : Nat} :
    Told s (s.transfer b o n) (if (transferred (s.booth b) o n).view = (s.booth b).view then [] else [.booth b])
      (toOps [.handoverDone b o n ((s.booth b).seat o).turn]) :=
  (told_setBooth s b (transferred (s.booth b) o n)).silent.notifyOps _

theorem booth_transfer (b o n x : Nat) :
    (s.transfer b o n).booth x = if x = b then transferred (s.booth b) o n else s.booth x := by
  unfold State.transfer transferred Seat.on Seat.offAir
  simp [booth_setBooth]

theorem onlyBooths_transfer (b o n : Nat) : s.OnlyBooths (s.transfer b o n) :=
  (onlyBooths_setBooth s b (transferred (s.booth b) o n)).trans
    (onlyBooths_notify _ .ops (.handoverDone b o n ((s.booth b).seat o).turn))

end Sys2Proof.Machine
end

section
/-!
PROOFS. Chapters 2 and 3: the microphone and mute keys, the forced seat commands and the booth timers, settled.
-/
namespace Sys2Proof.Machine

variable {s : State}

-- HANDOVER_LAPSE and FLASH_TIMER_EXPIRY (R41, R56)

theorem flash_get_set (f : Flash) (lamp other : FlashLamp) (seconds : Nat) :
    (f.set lamp seconds).get other = if other = lamp then seconds else f.get other := by
  cases lamp <;> cases other <;> rfl

/-- Settles O18: a request lapses (`told_lapse`); a timer is no part of the reserved view. -/
theorem boothTimersRunOut : Obligations.BoothTimersRunOut := by
  refine ⟨fun s b _ hnone => ignored_event s rfl fun _ => ?_, fun s b r hr hsome => ?_, fun s b lamp hr => ?_⟩
  · simp only [State.lapse, hnone]
  · refine ⟨_, event_next rfl hr rfl, ?_, fun x hx => ?_, (told_lapse s hsome).feedWork, ?_⟩
    · simp [lapse_some s hsome]
    · simp [lapse_some s hsome, booth_setBooth, hx]
    · refine State.OnlyBooths.trans ?_ (onlyBooths_feedWork _)
      rw [lapse_some s hsome]
      exact (onlyBooths_setBooth s _ _).trans (onlyBooths_notify _ _ _)
  · have htold := told_setBooth s b { s.booth b with flash := (s.booth b).flash.set lamp 0 }
    rw [if_pos (by rfl)] at htold
    refine ⟨_, event_next rfl hr rfl, ?_, fun other hne => ?_, ?_, fun x hx => ?_, htold.feedWork,
      (onlyBooths_setBooth s _ _).trans (onlyBooths_feedWork _)⟩
    · simp [flash_get_set]
    · simp [flash_get_set, hne]
    · simp
    · simp [booth_setBooth, hx]

-- Microphone keys (R33 to R35, R49 to R55)

theorem micKey_of_not {b n : Nat} (h : ¬ ((s.booth b).present && seatOk n) = true) : s.micKey b n = s := if_neg h

section
variable {b n : Nat} (hp : (s.booth b).link.state = .present) (h1 : 1 ≤ n) (h3 : n ≤ 3)
include hp h1 h3

theorem micKey_taken : ((s.booth b).present && seatOk n) = true := by
  simp [Booth.present, hp, seatOk, h1, h3]

theorem micKey_off (hoff : ((s.booth b).seat n).state = .off) :
    s.micKey b n =
      match (s.booth b).onAirSeat with
      | none => s.micGoOn b n
      | some t => s.micOff b n t := by
  unfold State.micKey
  rw [if_pos (micKey_taken hp h1 h3)]
  simp only [hoff] <;> rfl

theorem micKey_onAir (hon : ((s.booth b).seat n).onAir = true) : s.micKey b n = s.micOn b n := by
  unfold State.micKey
  rw [if_pos (micKey_taken hp h1 h3)]
  rcases onAir_iff.1 hon with h | h <;> simp only [h]

end

/-- Settles O10: what the press does follows from the seat's state, the selected language and its owner. -/
theorem micGoesOnAir : Obligations.MicGoesOnAir := by
  refine ⟨fun s b n hr h1 h3 hp hoff hnone => ⟨fun hl => ?_, fun l o hl howner hne => ?_⟩,
    fun s b n _ h => ignored_event s rfl fun _ => ?_, fun s b n l hr h1 h3 hp hoff hnone hl hfree => ?_⟩
  · refine flashes_event s hr rfl ?_
    simp only [micKey_off hp h1 h3 hoff, hnone, State.micGoOn, hl]
  · refine flashes_event s hr rfl ?_
    simp only [micKey_off hp h1 h3 hoff, hnone, State.micGoOn, hl, goOnAir_of_owned howner hne]
  · by_cases htaken : ((s.booth b).present && seatOk n) = true
    · simp only [Booth.present, Bool.and_eq_true, decide_eq_true_eq, seatOk_iff] at htaken
      obtain ⟨hp, h1, h3⟩ := htaken
      have habsent : ((s.booth b).seat n).state = .absent := by
        rcases h with h | h | h | h
        · exact absurd hp h
        · omega
        · omega
        · exact h
      simp only [State.micKey, micKey_taken hp h1 h3, habsent, if_true]
    · exact micKey_of_not htaken
  · have hon := onAir_goOnAir (s := s) (l := l) h1 h3 hoff
    have heffect : s.micKey b n =
        (s.setOwner l (some b)).setBooth b ((s.booth b).setSeat n ((s.booth b).seat n).on) := by
      simp only [micKey_off hp h1 h3 hoff, hnone, State.micGoOn, hl, goOnAir_of_free hfree]
    refine ⟨_, event_next rfl hr heffect, ?_, fun x hx => ?_, ?_, fun k hk => ?_, fun c => ?_, hon.told.feedWork,
      hon.hall.trans (onlyBooths_feedWork _).hall⟩
    · rw [feedWork_booth]; exact hon.booth
    · rw [feedWork_booth]; exact hon.others x hx
    · rw [feedWork_language]; exact hon.language
    · rw [feedWork_language]; exact hon.languages k hk
    · rw [feedWork_channel]; exact hon.channels c

/-- Settles O11, by what a seat going off the air does (`offAir_goOffAir`). -/
theorem micGoesOffAir : Obligations.MicGoesOffAir := by
  intro s b n hr h1 h3 hp hon hnone
  have hoff := offAir_goOffAir h1 h3 hon
  have heffect : s.micKey b n = s.goOffAir b n (s.booth b).language := by
    simp only [micKey_onAir hp h1 h3 hon, State.micOn, hnone]
  refine ⟨_, event_next rfl hr heffect, ?_, fun x hx => ?_, fun k => ?_, fun c => ?_, hoff.told.feedWork,
    hoff.hall.trans (onlyBooths_feedWork _).hall⟩
  · rw [feedWork_booth, hoff.booth, ← hnone]
    rfl
  · rw [feedWork_booth, hoff.others x hx]
  · rw [feedWork_language, hoff.released k]
  · rw [feedWork_channel, hoff.channels c]
    rfl

/-- Settles O12: the press is a request, its withdrawal, a refusal or a transfer, by the handover state. -/
theorem micHandsOver : Obligations.MicHandsOver := by
  intro s b o n hr ho1 ho3 h1 h3 hne hp hseat hon hoff v done press
  have hpress : ∀ {key : Nat} {t : State} {w : Booth} {notices : List Notice}, s.micKey b key = t →
      t.booth b = w → (∀ x, x ≠ b → t.booth x = s.booth x) →
      Told s t (if w.view = v.view then [] else [.booth b]) (toOps notices) → s.OnlyBooths t →
      press key w notices := fun heffect hbooth hothers htold hframe =>
    ⟨_, event_next rfl hr heffect, by rw [feedWork_booth, hbooth], fun x hx => by rw [feedWork_booth, hothers x hx],
      htold.feedWork, hframe.trans (onlyBooths_feedWork _)⟩
  have hwrite : ∀ {key : Nat} (w : Booth), s.micKey b key = s.setBooth b w → press key w [] := fun w heffect =>
    hpress heffect (booth_setBooth_same s b w) (fun x hx => by simp [booth_setBooth, hx]) (told_setBooth s b w).silent
      (onlyBooths_setBooth s b w)
  have htransfer : ∀ {key : Nat}, s.micKey b key = s.transfer b o n → press key (transferred v o n) done :=
    fun heffect => hpress heffect ((booth_transfer b o n b).trans (if_pos rfl))
      (fun x hx => (booth_transfer b o n x).trans (if_neg hx)) told_transfer (onlyBooths_transfer b o n)
  have hkey : s.micKey b n = s.micOff b n o := by rw [micKey_off hp h1 h3 hoff, hseat]
  cases hhandover : v.handover with
  | none =>
    dsimp only
    cases hmode : v.config.mode with
    | announced => exact hwrite _ (by simp only [hkey, State.micOff, show (s.booth b).handover = none from hhandover,
        show (s.booth b).config.mode = .announced from hmode, State.requestBy, v])
    | direct => exact htransfer (by simp only [hkey, State.micOff, show (s.booth b).handover = none from hhandover,
        show (s.booth b).config.mode = .direct from hmode])
  | some r =>
    have hsome : (s.booth b).handover = some r := hhandover
    dsimp only
    split
    next hrequester =>
      refine ⟨hwrite _ (by simp only [hkey, State.micOff, hsome, hrequester, if_true, State.withdraw, v]), htransfer ?_⟩
      rw [micKey_onAir hp ho1 ho3 hon]
      simp only [State.micOn, hsome, hrequester]
    next hrequester =>
      exact hwrite _ (by simp only [hkey, State.micOff, hsome, hrequester, if_false, State.flashLamp, v]; rfl)

-- Mute keys (R36)

theorem muteKeys_iff {v : Booth} (hp : v.link.state = .present) :
    v.muteKeys = true ↔ v.granted.map (·.mute) = some true := by
  simp only [Booth.muteKeys, Booth.present, hp, decide_true, Bool.true_and]
  cases v.granted <;> simp

theorem muteKey_of_not {b n : Nat} {before after : SeatState}
    (h : ¬ ((s.booth b).muteKeys ∧ seatOk n ∧ ((s.booth b).seat n).state = before)) :
    s.muteKey b n before after = s := by
  unfold State.muteKey
  exact if_neg (by simpa [and_assoc] using h)

theorem exec_muteKey (s : State) (b n : Nat) (down : Bool) :
    exec (if down then .muteDown b n else .muteUp b n) s =
      .next (s.hallEvent fun s =>
        s.muteKey b n (if down then .live else .muted) (if down then .muted else .live)) := by
  cases down <;> rfl

/-- Settles O13: the key moves the seat's state, which the reserved view holds, or is ignored. -/
theorem muteKeysMove : Obligations.MuteKeysMove := by
  refine ⟨fun s b n _ h => ?_, ?_⟩
  · have hnot : ∀ before, ¬ ((s.booth b).muteKeys ∧ seatOk n ∧ ((s.booth b).seat n).state = before) := by
      rintro before ⟨hkeys, hseat, -⟩
      obtain ⟨h1, h3⟩ := seatOk_iff.1 hseat
      simp only [Booth.muteKeys, Booth.present, Bool.and_eq_true, decide_eq_true_eq] at hkeys
      rcases h with h | h | h
      · exact h hkeys.1
      · omega
      · omega
    exact ⟨ignored_event s rfl fun _ => muteKey_of_not (hnot _), ignored_event s rfl fun _ => muteKey_of_not (hnot _)⟩
  intro s b n down hr h1 h3 hp able
  refine ⟨fun hable hstate => ?_, fun h => ?_⟩
  · have heffect : s.muteKey b n (if down then .live else .muted) (if down then .muted else .live) =
        s.setBooth b ((s.booth b).setSeat n
          { (s.booth b).seat n with state := if down then .muted else .live }) := by
      unfold State.muteKey
      exact if_pos (by simp [(muteKeys_iff hp).2 hable, seatOk_iff.2 ⟨h1, h3⟩, hstate])
    have hview : ((s.booth b).setSeat n
        { (s.booth b).seat n with state := if down then .muted else .live }).view ≠ (s.booth b).view := by
      refine view_ne_of_seat h1 h3 ?_
      rw [seat_setSeat_same, hstate]
      cases down <;> simp
    have htold := told_setBooth s b ((s.booth b).setSeat n
      { (s.booth b).seat n with state := if down then .muted else .live })
    rw [if_neg hview] at htold
    refine ⟨_, event_next (exec_muteKey s b n down) hr heffect, ?_, fun x hx => ?_, htold.feedWork,
      (onlyBooths_setBooth s _ _).trans (onlyBooths_feedWork _)⟩
    · simp
    · simp [booth_setBooth, hx]
  · refine ⟨_, event_next (exec_muteKey s b n down) hr (muteKey_of_not ?_), feedWork_frame s⟩
    rintro ⟨hkeys, -, hstate⟩
    rcases h with h | h
    · exact h ((muteKeys_iff hp).1 hkeys)
    · exact h hstate

-- SEAT_FORCE_TAKE and SEAT_FORCE_OFF (R59 to R61)

theorem badBooth_eq (b : Byte) : badBooth s b = !s.boothOk b := by
  have hzero : b = 0x00 ↔ ¬ 1 ≤ b.toNat := by bv_omega
  unfold badBooth State.boothOk
  rw [Bool.eq_iff_iff]
  simp only [hzero, decide_eq_true_eq, Bool.not_eq_true', Bool.and_eq_false_iff, decide_eq_false_iff_not]
  omega

theorem doSeatForceTake_refused {booth seat : Byte} {x : Result}
    (h : firstFailure (seatForceTakeChecks s booth seat) = some x) :
    doSeatForceTake .ops [booth, seat] s = refuse s x := by
  unfold seatForceTakeChecks at h
  simp only [firstFailure_cons, firstFailure_nil] at h
  simp only [doSeatForceTake]
  have hseat : seat = 0x00 ↔ ¬ 1 ≤ seat.toNat := by bv_omega
  refine refuse_of_check s ?_ h fun h => ?_
  · simp only [badBooth_eq, Bool.or_eq_true, Bool.not_eq_true', decide_eq_true_eq, hseat, Bool.eq_false_iff, ne_eq,
      seatOk_iff, not_and_or, Nat.not_le]
  · exact refuse_of_check s (by simp [Booth.present]) h fun h => nomatch h

theorem doSeatForceTake_taken {booth seat : Byte} (hok : s.boothOk booth = true) (h1 : 1 ≤ seat.toNat)
    (h3 : seat.toNat ≤ 3) (hp : (s.booth booth.toNat).link.state = .present)
    (hstate : ((s.booth booth.toNat).seat seat.toNat).state ≠ .absent) :
    doSeatForceTake .ops [booth, seat] s = s.forceTake booth.toNat seat.toNat := by
  simp only [doSeatForceTake]
  rw [if_neg (by simp [hok, seatOk_iff.2 ⟨h1, h3⟩]), if_neg (by simp [Booth.present, hp, hstate])]

/-- Settles O16: the transfer, the seat going on air and the refusals, each with its outcome. -/
theorem seatForceTakeActs : Obligations.SeatForceTakeActs := by
  refine ⟨fun s tag booth seat ht => refusedBy_own (name := .seatForceTake) rfl ht rfl rfl
    fun x hx => doSeatForceTake_refused hx, ?_, ?_⟩
  · intro s tag booth seat ht hok h1 h3 v hp hstate hnone
    have hdo := doSeatForceTake_taken hok h1 h3 hp hstate
    have hnone : (s.booth booth.toNat).onAirSeat = none := hnone
    refine ⟨fun hl => answers_own (name := .seatForceTake) s rfl ht rfl rfl (hdo.trans ?_),
      fun l o hl howner hne => answers_own (name := .seatForceTake) s rfl ht rfl rfl (hdo.trans ?_)⟩
    · simp only [State.forceTake, hnone, show (s.booth booth.toNat).language = none from hl]
      rfl
    · simp only [State.forceTake, hnone, show (s.booth booth.toNat).language = some l from hl,
        goOnAir_of_owned howner hne]
      rfl
  · intro s tag booth seat ht hok h1 h3 b n v hp hstate frame
    have hdo := doSeatForceTake_taken hok h1 h3 hp hstate
    refine ⟨fun o hseat hne => ?_, fun hseat => ?_, fun l hnone hl hfree => ?_⟩
    · obtain ⟨ho1, ho3, hon⟩ := onAirSeat_some hseat
      have htransfer : doSeatForceTake .ops [booth, seat] s =
          (s.transfer b o n, ⟨.ok, [0x02, BitVec.ofNat 8 o]⟩) := by
        rw [hdo]
        simp only [State.forceTake, show (s.booth booth.toNat).onAirSeat = some o from hseat]
        rw [if_neg hne]
        rfl
      have hview : (transferred v o n).view ≠ v.view := by
        refine view_ne_of_seat (n := o) ho1 ho3 fun e => ?_
        have hoff : ((transferred v o n).seat o).state = .off :=
          congrArg Seat.state (seat_setSeat_same (v.setSeat n _) o _)
        rcases onAir_iff.1 hon with h | h <;> exact nomatch hoff.symm.trans (e.trans h)
      have htold := told_transfer (s := s) (b := b) (o := o) (n := n)
      rw [if_neg hview] at htold
      refine ⟨_, client_next (name := .seatForceTake) ht rfl rfl htransfer, ?_, fun x hx => ?_, ?_, ?_,
        answered_after htold, ((onlyBooths_transfer b o n).trans (onlyBooths_after _ _ _ _ _)).hall⟩
      · rw [after_booth, booth_transfer, if_pos rfl]
      · rw [after_booth, booth_transfer, if_neg hx]
      · simp [State.transfer]
      · simp [State.transfer]
    · have hsame : doSeatForceTake .ops [booth, seat] s = (s, ⟨.ok, [0x03, seat]⟩) := by
        rw [hdo]
        simp only [State.forceTake, show (s.booth booth.toNat).onAirSeat = some n from hseat]
        rw [if_pos rfl]
        simp [seatReply, n, byteIndex, byte1, SeatOutcome.code]
      exact ⟨_, client_next (name := .seatForceTake) ht rfl rfl hsame, after_booths .., after_languages ..,
        after_channels .., answered_after (Told.refl s), (onlyBooths_after _ _ _ _ _).hall⟩
    · have hoff : (v.seat n).state = .off := by
        have hnot := onAirSeat_none hnone h1 h3
        cases hcase : (v.seat n).state with
        | off => rfl
        | absent => exact absurd hcase hstate
        | live | muted =>
          rw [onAir_iff.2 (by simp [show (v.seat seat.toNat).state = _ from hcase])] at hnot
          exact nomatch hnot
      have hon := onAir_goOnAir (s := s) (l := l) h1 h3 hoff
      have hacquired : doSeatForceTake .ops [booth, seat] s = 
          ((s.setOwner l (some b)).setBooth b (v.setSeat n (v.seat n).on), ⟨.ok, [0x01, 0xFF]⟩) := by
        rw [hdo]
        simp only [State.forceTake, show (s.booth booth.toNat).onAirSeat = none from hnone,
          show (s.booth booth.toNat).language = some l from hl,
          goOnAir_of_free (s := s) (b := booth.toNat) hfree]
        rfl
      refine ⟨_, client_next (name := .seatForceTake) ht rfl rfl hacquired, ?_, fun x hx => ?_, ?_, fun k hk => ?_,
        fun c => ?_, answered_after hon.told, hon.hall.trans (onlyBooths_after _ _ _ _ _).hall⟩
      · rw [after_booth]; exact hon.booth
      · rw [after_booth]; exact hon.others x hx
      · rw [after_language]; exact hon.language
      · rw [after_language]; exact hon.languages k hk
      · rw [after_channel]; exact hon.channels c

theorem doSeatForceOff_refused {booth : Byte} {x : Result}
    (h : firstFailure [(decide (badBooth s booth = true), Result.badArg),
      (decide ((s.booth booth.toNat).onAirSeat = none), .wrongState)] = some x) :
    doSeatForceOff .ops [booth] s = refuse s x := by
  simp only [firstFailure_cons, firstFailure_nil] at h
  simp only [doSeatForceOff]
  refine refuse_of_check s (by simp [badBooth_eq]) h fun h => ?_
  cases hseat : (s.booth booth.toNat).onAirSeat with
  | none =>
    rw [if_pos (by simp [hseat])] at h
    rw [← Option.some.inj h]
  | some n =>
    rw [if_neg (by simp [hseat])] at h
    exact nomatch h

/-- Settles O17, by what a seat going off the air does (`offAir_goOffAir`). -/
theorem seatForceOffActs : Obligations.SeatForceOffActs := by
  refine ⟨fun s tag booth ht => refusedBy_own (name := .seatForceOff) rfl ht rfl rfl
    fun x hx => doSeatForceOff_refused hx, ?_⟩
  intro s tag booth n ht hok hseat b v
  obtain ⟨h1, h3, hon⟩ := onAirSeat_some hseat
  have hoff := offAir_goOffAir h1 h3 hon
  have hdo : doSeatForceOff .ops [booth] s =
      (s.goOffAir b n v.language, ⟨.ok, byte1 n ++ byte2 (v.seat n).turn⟩) := by
    simp only [doSeatForceOff]
    rw [if_neg (by simp [hok]), hseat]
  refine ⟨_, client_next (name := .seatForceOff) ht rfl rfl hdo, ?_, fun x hx => ?_, fun k => ?_, fun c => ?_,
    answered_after hoff.told, hoff.hall.trans (onlyBooths_after _ _ _ _ _).hall⟩
  · rw [after_booth]; exact hoff.booth
  · rw [after_booth]; exact hoff.others x hx
  · rw [after_language]; exact hoff.released k
  · rw [after_channel]; exact hoff.channels c

end Sys2Proof.Machine
end

section
/-!
PROOFS. The takers of a booth that follow it or are dropped (R78 to R81), and the output keys (R37 to R39), settled.
-/
namespace Sys2Proof.Machine

variable {s : State}

/-- Reservations are cleared on a set of records. -/
theorem Told.same_records {t : State} {rs rs' : List RecordName} {ns : Port → List Notice} (h : Told s t rs ns)
    (hr : ∀ r, r ∈ rs ↔ r ∈ rs') : Told s t rs' ns := by
  intro p
  rw [h p, clearAll_eq, clearAll_eq]
  simp only [hr]

/-- As `Told`, but that the reservations of booth `b` itself may be cleared or not. -/
def ToldBeside (s t : State) (b : Nat) (rs : List RecordName) (ns : List Notice) : Prop :=
  ∃ own, (∀ r ∈ own, r = .booth b) ∧ Told s t (rs ++ own) (toOps ns)

section
variable {t u : State} {b : Nat} {rs rs' : List RecordName} {ns ns' : List Notice}

theorem Told.beside (h : Told s t rs (toOps ns)) : ToldBeside s t b rs ns := ⟨[], by simp, by rwa [List.append_nil]⟩

/-- A write of booth `b` clears no reservation but its own. -/
theorem told_beside_setBooth (s : State) (b : Nat) (v : Booth) : ToldBeside s (s.setBooth b v) b [] [] := by
  have h := (told_setBooth s b v).silent
  by_cases hv : v.view = (s.booth b).view
  · rw [if_pos hv] at h
    exact h.beside
  · rw [if_neg hv] at h
    exact ⟨[.booth b], by simp, h⟩

theorem ToldBeside.trans (h : ToldBeside s t b rs ns) (h' : ToldBeside t u b rs' ns') :
    ToldBeside s u b (rs ++ rs') (ns ++ ns') := by
  obtain ⟨own, hown, htold⟩ := h
  obtain ⟨own', hown', htold'⟩ := h'
  refine ⟨own ++ own', fun r hr => (List.mem_append.1 hr).elim (hown r) (hown' r), ?_⟩
  refine (htold.trans_ops htold').same_records fun r => ?_
  simp only [List.mem_append]
  tauto

/-- After a step that clears the reservations of booth `b`, it does not matter whether they are cleared again. -/
theorem Told.then_beside (h : Told s t rs (toOps ns)) (hb : .booth b ∈ rs) (h' : ToldBeside t u b rs' ns') :
    Told s u (rs ++ rs') (toOps (ns ++ ns')) := by
  obtain ⟨own, hown, htold⟩ := h'
  refine (h.trans_ops htold).same_records fun r => ?_
  simp only [List.mem_append]
  constructor
  · rintro (hr | hr | hr)
    · exact .inl hr
    · exact .inr hr
    · exact .inl (hown r hr ▸ hb)
  · rintro (hr | hr)
    · exact .inl hr
    · exact .inr (.inl hr)

end

-- One taker dropped (R78)

theorem booth_dropTaker (s : State) (b : Nat) (cause : Cause) (c x : Nat) :
    (s.dropTaker b cause c).booth x =
      { s.booth x with
        input := if x = c then .floor else (s.booth x).input
        stack := if x = c then (s.booth x).stack.push (.relay b) else (s.booth x).stack
        takers := if x = b then setDel c (s.booth x).takers else (s.booth x).takers } := by
  unfold State.dropTaker
  simp only [notifyOps_eq, notify_booth, booth_setBooth]
  by_cases hb : x = b
  · subst hb
    by_cases hc : x = c
    · subst hc; simp
    · simp [hc]
  · by_cases hc : x = c
    · subst hc; simp [hb]
    · simp [hb, hc]

theorem told_dropTaker (s : State) (b : Nat) (cause : Cause) (c : Nat) :
    Told s (s.dropTaker b cause c)
      ((if (s.booth c).input ≠ .floor then [.booth c] else []) ++ s.takerRecords b (setDel c (s.booth b).takers))
      (toOps [.relayDropped c b cause]) := by
  let left := s.setBooth c { s.booth c with input := .floor, stack := (s.booth c).stack.push (.relay b) }
  have hview : ({ s.booth c with input := .floor, stack := (s.booth c).stack.push (.relay b) } : Booth).view =
      (s.booth c).view ↔ ¬ (s.booth c).input ≠ .floor := by
    rw [not_not]
    exact ⟨fun e => (congrArg BoothView.input e).symm, fun e => by rw [Booth.view, Booth.view, e]; rfl⟩
  have hleft : Told s left (if (s.booth c).input ≠ .floor then [.booth c] else []) toNone := by
    have h := told_setBooth s c { s.booth c with input := .floor, stack := (s.booth c).stack.push (.relay b) }
    rwa [if_congr hview rfl rfl, ite_not] at h
  have htakers : (left.booth b).takers = (s.booth b).takers := by
    by_cases hb : b = c
    · subst hb; simp [left]
    · simp [left, booth_setBooth, hb]
  have hdeleted := told_setTakers left b (setDel c (left.booth b).takers)
  rw [takerRecords_congr htakers, htakers] at hdeleted
  have hdropped := (hleft.silent.then_silent hdeleted).notifyOps (.relayDropped c b cause)
  rw [← htakers] at hdropped
  exact htakers ▸ hdropped

theorem onlyBooths_dropTaker (s : State) (b : Nat) (cause : Cause) (c : Nat) : s.OnlyBooths (s.dropTaker b cause c) :=
  ((onlyBooths_setBooth s _ _).trans (onlyBooths_setBooth _ _ _)).trans
    (onlyBooths_notify _ .ops (.relayDropped c b cause))

-- Takers visited one after another

/-- But for the booths `l`, taken from the takers of `b` and heard on FLOOR, no booth is changed (R78). -/
def Dropped (s t : State) (b : Nat) (l : List Nat) : Prop :=
  ∀ x, t.booth x =
    { s.booth x with
      input := if x ∈ l then .floor else (s.booth x).input
      stack := if x ∈ l then (s.booth x).stack.push (.relay b) else (s.booth x).stack
      takers := if x = b then (s.booth x).takers.filter (fun c => c ∉ l) else (s.booth x).takers }

/-- An operation that visits one taker of booth `b`, drops it if its configuration refuses, and tells of it. -/
structure VisitsTaker (b : Nat) (f : State → Nat → State) (refused : BoothConfig → Bool)
    (notice : BoothConfig → Nat → Notice) : Prop where
  drops : ∀ s c, Dropped s (f s c) b (if refused (s.booth c).config then [c] else [])
  told  : ∀ s c, ToldBeside s (f s c) b (s.droppedRecords (if refused (s.booth c).config then [c] else []))
    [notice (s.booth c).config c]
  frame : ∀ (s : State) c, s.OnlyBooths (f s c)

theorem dropped_dropTaker (s : State) (b : Nat) (cause : Cause) (c : Nat) : Dropped s (s.dropTaker b cause c) b [c] := by
  intro x
  rw [booth_dropTaker]
  simp [setDel]

theorem Dropped.config {t : State} {b : Nat} {l : List Nat} (h : Dropped s t b l) (x : Nat) :
    (t.booth x).config = (s.booth x).config := by rw [h x]

theorem Dropped.input_of_not_mem {t : State} {b x : Nat} {l : List Nat} (h : Dropped s t b l) (hx : x ∉ l) :
    (t.booth x).input = (s.booth x).input := by
  rw [h x]
  exact if_neg hx

theorem Dropped.trans {t u : State} {b : Nat} {l l' : List Nat} (h : Dropped s t b l) (h' : Dropped t u b l')
    (hd : ∀ x ∈ l, x ∉ l') : Dropped s u b (l ++ l') := by
  intro x
  rw [h' x, h x]
  have htakers : (if x = b then (if x = b then (s.booth x).takers.filter (fun c => c ∉ l) else (s.booth x).takers).filter
      (fun c => c ∉ l') else if x = b then (s.booth x).takers.filter (fun c => c ∉ l) else (s.booth x).takers) =
      if x = b then (s.booth x).takers.filter (fun c => c ∉ l ++ l') else (s.booth x).takers := by
    split
    · simp only [List.filter_filter, List.mem_append, not_or, Bool.decide_and, Bool.and_comm]
    · rfl
  rw [htakers]
  by_cases hx : x ∈ l
  · simp [hx, hd x hx]
  · by_cases hx' : x ∈ l' <;> simp [hx, hx']

theorem droppedRecords_append (s : State) (l l' : List Nat) :
    s.droppedRecords (l ++ l') = s.droppedRecords l ++ s.droppedRecords l' := by
  simp [State.droppedRecords]

theorem droppedRecords_congr {s t : State} {l : List Nat} (h : ∀ x ∈ l, (t.booth x).input = (s.booth x).input) :
    t.droppedRecords l = s.droppedRecords l := by
  unfold State.droppedRecords
  congr 1
  exact List.filter_congr fun x hx => by rw [h x hx]

section
variable {b : Nat} {f : State → Nat → State} {refused : BoothConfig → Bool} {notice : BoothConfig → Nat → Notice}

/-- Takers visited one after another: those whose configuration refuses are dropped, and each is told of. -/
theorem VisitsTaker.foldl (h : VisitsTaker b f refused notice) {l : List Nat} (hl : l.Nodup) (s : State) :
    Dropped s (l.foldl f s) b (l.filter fun c => refused (s.booth c).config) ∧
      ToldBeside s (l.foldl f s) b (s.droppedRecords (l.filter fun c => refused (s.booth c).config))
        (l.map fun c => notice (s.booth c).config c) ∧
      s.OnlyBooths (l.foldl f s) := by
  induction l generalizing s with
  | nil => exact ⟨fun x => by simp, (Told.refl s).silent.beside, .refl s⟩
  | cons c rest ih =>
    obtain ⟨hc, hrest⟩ := List.nodup_cons.1 hl
    have hone := h.drops s c
    obtain ⟨hlater, htold, hframe⟩ := ih hrest (f s c)
    have hsplit : (c :: rest).filter (fun c => refused (s.booth c).config) =
        (if refused (s.booth c).config then [c] else []) ++ rest.filter fun c => refused (s.booth c).config := by
      cases hr : refused (s.booth c).config <;> simp [hr]
    have hnot : ∀ x ∈ (if refused (s.booth c).config then [c] else []), x ∉ rest := by
      intro x hx
      split at hx
      · rw [List.mem_singleton] at hx
        exact hx ▸ hc
      · simp at hx
    simp only [hone.config] at hlater htold
    rw [droppedRecords_congr fun x hx => hone.input_of_not_mem fun hx' => hnot x hx' (List.mem_filter.1 hx).1] at htold
    rw [hsplit, droppedRecords_append]
    exact ⟨hone.trans hlater fun x hx hx' => hnot x hx (List.mem_filter.1 hx').1, (h.told s c).trans htold,
      (h.frame s c).trans hframe⟩

end

-- Follow or drop (R79, R80)

/-- A booth with configuration `c` does not accept language `y`. -/
def refuses (y : Option Nat) (c : BoothConfig) : Bool := !(y.any fun l => c.accepted.contains l)

/-- The notice of a taker that follows booth `b` to language `y`, or is dropped (R79, R85). -/
def visitNotice (b : Nat) (y : Option Nat) (c : BoothConfig) (x : Nat) : Notice :=
  match y with
  | none => .relayDropped x b .notUnderstood
  | some l => if refuses y c then .relayDropped x b .notUnderstood else .relayFollowed x b l

theorem followOrDropOne_cases (s : State) (b c : Nat) (y : Option Nat) :
    (refuses y (s.booth c).config = true ∧ s.followOrDropOne b y c = s.dropTaker b .notUnderstood c ∧
        visitNotice b y (s.booth c).config c = .relayDropped c b .notUnderstood) ∨
      (refuses y (s.booth c).config = false ∧
        s.followOrDropOne b y c = s.notify .ops (visitNotice b y (s.booth c).config c)) := by
  cases y with
  | none => exact .inl ⟨rfl, rfl, rfl⟩
  | some l =>
    have haccepts : (s.booth c).config.accepted.contains l = !refuses (some l) (s.booth c).config := by simp [refuses]
    unfold State.followOrDropOne visitNotice
    simp only [haccepts]
    cases refuses (some l) (s.booth c).config with
    | true => exact .inl ⟨rfl, rfl, rfl⟩
    | false => exact .inr ⟨rfl, rfl⟩

theorem droppedRecords_single (s : State) (c : Nat) :
    s.droppedRecords [c] = if (s.booth c).input ≠ .floor then [.booth c] else [] := by
  unfold State.droppedRecords
  split <;> simp_all

theorem takerRecords_mem {a : Nat} {takers : List Nat} : ∀ r ∈ s.takerRecords a takers, r = .booth a := by
  intro r hr
  unfold State.takerRecords at hr
  split at hr
  · simp at hr
  · simpa using hr

theorem visitsTaker_dropTaker (b : Nat) (cause : Cause) :
    VisitsTaker b (fun s c => s.dropTaker b cause c) (fun _ => true) fun _ c => .relayDropped c b cause where
  drops s c := dropped_dropTaker s b cause c
  told s c := ⟨_, takerRecords_mem, (droppedRecords_single s c) ▸ told_dropTaker s b cause c⟩
  frame s c := onlyBooths_dropTaker s b cause c

theorem visitsTaker_followOrDropOne (b : Nat) (y : Option Nat) :
    VisitsTaker b (fun s c => s.followOrDropOne b y c) (refuses y) (visitNotice b y) where
  drops s c := by
    rcases followOrDropOne_cases s b c y with ⟨hrefused, hone, -⟩ | ⟨hrefused, hone⟩
    · rw [hone, hrefused]
      exact dropped_dropTaker s b .notUnderstood c
    · rw [hone, hrefused]
      intro x
      simp
  told s c := by
    rcases followOrDropOne_cases s b c y with ⟨hrefused, hone, hnotice⟩ | ⟨hrefused, hone⟩
    · rw [hone, hrefused, hnotice, if_pos rfl, droppedRecords_single]
      exact ⟨_, takerRecords_mem, told_dropTaker s b .notUnderstood c⟩
    · rw [hone, hrefused]
      exact (told_notifyOps s _).beside
  frame s c := by
    rcases followOrDropOne_cases s b c y with ⟨-, hone, -⟩ | ⟨-, hone⟩
    · rw [hone]
      exact onlyBooths_dropTaker s b .notUnderstood c
    · rw [hone]
      exact onlyBooths_notify s .ops _

end Sys2Proof.Machine
end

section
/-!
PROOFS. The output keys (R37 to R39), settled.
-/
namespace Sys2Proof.Machine

variable {s : State}

section
variable {b : Nat} {o : Output}

theorem changeOutput_same {former : Option Nat} (h : (s.booth b).outputLanguage o = former) :
    s.changeOutput b o former = s.setBooth b { s.booth b with selected := o } := by
  unfold State.changeOutput
  exact if_pos (by rw [booth_setBooth_same]; exact h)

theorem view_ne_of_selected {v w : Booth} (h : w.selected ≠ v.selected) : w.view ≠ v.view :=
  fun e => h (congrArg BoothView.selected e)

/-- The selection is written alone. -/
theorem told_select (h : (s.booth b).selected ≠ o) :
    Told s (s.setBooth b { s.booth b with selected := o }) [.booth b] toNone := by
  have htold := told_setBooth s b { s.booth b with selected := o }
  rwa [if_neg (view_ne_of_selected (Ne.symm h))] at htold

/-- The selection is written, and the takers follow the new language or are dropped (R38, R39, R79). -/
theorem changeOutput_moves {former : Option Nat} (hsel : (s.booth b).selected ≠ o)
    (h : (s.booth b).outputLanguage o ≠ former) (hn : (s.booth b).takers.Nodup) :
    let dropped := (s.booth b).takers.filter fun c => refuses ((s.booth b).outputLanguage o) (s.booth c).config
    (∀ x, (s.changeOutput b o former).booth x =
      { s.booth x with
        selected := if x = b then o else (s.booth x).selected
        input := if x ∈ dropped then .floor else (s.booth x).input
        stack := if x ∈ dropped then (s.booth x).stack.push (.relay b) else (s.booth x).stack
        takers := if x = b then (s.booth b).takers.filter (fun c => c ∉ dropped) else (s.booth x).takers }) ∧
    Told s (s.changeOutput b o former) (.booth b :: s.droppedRecords dropped)
      (toOps ((s.booth b).takers.map fun c => visitNotice b ((s.booth b).outputLanguage o) (s.booth c).config c)) ∧
    s.OnlyBooths (s.changeOutput b o former) := by
  intro dropped
  let written := s.setBooth b { s.booth b with selected := o }
  have hread : ∀ x, written.booth x = { s.booth x with selected := if x = b then o else (s.booth x).selected } := by
    intro x
    simp only [written, booth_setBooth]
    by_cases hx : x = b
    · subst hx; simp
    · simp [hx]
  have hconfig : ∀ x, (written.booth x).config = (s.booth x).config := fun x => by rw [hread]
  have hfold : s.changeOutput b o former =
      (s.booth b).takers.foldl (fun u c => u.followOrDropOne b ((s.booth b).outputLanguage o) c) written := by
    unfold State.changeOutput
    have hlanguage : (written.booth b).language = (s.booth b).outputLanguage o := by simp [written, Booth.language]; rfl
    refine (if_neg (by rw [hlanguage]; exact h)).trans ?_
    rw [hlanguage, State.followOrDrop, hread b]
  have hvisits := visitsTaker_followOrDropOne b ((s.booth b).outputLanguage o)
  obtain ⟨hdropped, hbeside, hframe⟩ := hvisits.foldl hn written
  have htold := (told_select hsel).silent.then_beside (List.mem_singleton.2 rfl) hbeside
  simp only [hconfig] at hdropped htold
  rw [droppedRecords_congr (s := s) fun x _ => by rw [hread]] at htold
  rw [hfold]
  refine ⟨fun x => ?_, htold, (onlyBooths_setBooth s _ _).trans hframe⟩
  rw [hdropped x, hread x]
  by_cases hx : x = b
  · subst hx; rfl
  · simp only [hx, if_false]
    rfl

end

-- The output keys (R37)

theorem exec_outputKey_taken {b : Nat} {o : Output} (hr : s.run = .hall) (hp : (s.booth b).link.state = .present)
    (hsel : (s.booth b).selected ≠ o)
    (hb : o = .b → (s.booth b).granted.map (·.outputB) = some true ∧ (s.booth b).config.outputB ≠ none)
    (ha : o = .a → (s.booth b).config.outputA ≠ none ∨ (s.booth b).onAirSeat = none) :
    exec (outputKey o b) s = .next (s.takeOutput b o).feedWork := by
  cases o with
  | a =>
    refine event_next rfl hr ?_
    unfold State.outputAKey
    rw [if_neg (by simp [Booth.present, hp, hsel]), if_neg]
    rcases ha rfl with h | h <;> simp [h]
  | b =>
    obtain ⟨hable, hlanguage⟩ := hb rfl
    obtain ⟨g, hg, hgb⟩ := Option.map_eq_some_iff.1 hable
    refine event_next rfl hr ?_
    unfold State.outputBKey
    rw [if_neg (by simp [Booth.present, hp, hsel]), if_neg (by simp [hg, hgb]), if_neg (by simp [hlanguage])]

theorem ignored_outputKey {b : Nat} {o : Output}
    (h : (s.booth b).link.state ≠ .present ∨ (s.booth b).selected = o) : Ignored (outputKey o b) s := by
  cases o with
  | a => exact ignored_event s rfl fun _ => if_pos (by simpa [Booth.present] using h)
  | b => exact ignored_event s rfl fun _ => if_pos (by simpa [Booth.present] using h)

theorem takeOutput_offAir {b : Nat} {o : Output} (h : (s.booth b).onAirSeat = none) :
    s.takeOutput b o = s.changeOutput b o (s.booth b).language := by
  simp only [State.takeOutput, h]

theorem takeOutput_onAir {b n y : Nat} {o : Output} (h : (s.booth b).onAirSeat = some n)
    (hy : (s.booth b).outputLanguage o = some y) :
    s.takeOutput b o =
      match s.switchTo b (s.booth b).language y with
      | none => s.flashLamp b .occupied
      | some t => t.changeOutput b o (s.booth b).language := by
  simp only [State.takeOutput, h, hy] <;> rfl

/-- The selection written alone, as a row of the hall. -/
theorem selects_alone {i : Instr} {b : Nat} {o : Output}
    (hi : exec i s = .next (s.setBooth b { s.booth b with selected := o }).feedWork) (hsel : (s.booth b).selected ≠ o) :
    ∃ t, exec i s = .next t ∧ t.booth b = { s.booth b with selected := o } ∧
      (∀ x, x ≠ b → t.booth x = s.booth x) ∧ Told s t [.booth b] toNone ∧ s.OnlyBooths t :=
  ⟨_, hi, by simp, fun x hx => by simp [booth_setBooth, hx], (told_select hsel).feedWork,
    (onlyBooths_setBooth s _ _).trans (onlyBooths_feedWork _)⟩

/-- The notice of a taker that follows or is dropped, by the list of those dropped. -/
theorem visitNotice_map (s : State) (b y : Nat) :
    ((s.booth b).takers.map fun c => visitNotice b (some y) (s.booth c).config c) =
      (s.booth b).takers.map fun c =>
        if c ∈ refusing s b y then .relayDropped c b .notUnderstood else .relayFollowed c b y := by
  refine List.map_congr_left fun c hc => ?_
  have hmem : c ∈ refusing s b y ↔ refuses (some y) (s.booth c).config = true := by
    simp [refusing, refuses, hc]
  simp only [hmem, visitNotice]

theorem refusing_eq (s : State) (b y : Nat) :
    refusing s b y = (s.booth b).takers.filter fun c => refuses (some y) (s.booth c).config := rfl

/-- Settles O14: off the air the key changes the selection alone, or the takers follow it (`changeOutput_moves`). -/
theorem outputKeysSelect : Obligations.OutputKeysSelect := by
  refine ⟨fun s b o _ h => ignored_outputKey h, fun s b hr hp => ?_, ?_⟩
  · refine ⟨fun hsel hable => ?_, fun hsel hable hlanguage => ?_, fun hsel hlanguage hseat => ?_,
      fun hsel hlanguage hnone hformer hn => ?_, fun o hsel hb hnone hsame => ?_⟩
    · refine flashes_event s hr rfl ?_
      unfold State.outputBKey
      rw [if_neg (by simp [Booth.present, hp, hsel]), if_pos]
      cases hg : (s.booth b).granted with
      | none => rfl
      | some g =>
        rw [hg] at hable
        simpa using hable
    · obtain ⟨g, hg, hgb⟩ := Option.map_eq_some_iff.1 hable
      refine flashes_event s hr rfl ?_
      unfold State.outputBKey
      rw [if_neg (by simp [Booth.present, hp, hsel]), if_neg (by simp [hg, hgb]), if_pos (by simp [hlanguage])]
    · refine flashes_event s hr rfl ?_
      unfold State.outputAKey
      rw [if_neg (by simp [Booth.present, hp, hsel]), if_pos]
      simp [hlanguage, Option.isSome_iff_ne_none, hseat]
    · have hkey : exec (.outputA b) s = _ := exec_outputKey_taken (o := .a) hr hp hsel (fun e => nomatch e)
        fun _ => .inr hnone
      obtain ⟨hbooths, htold, hframe⟩ := changeOutput_moves (former := (s.booth b).language) hsel
        (by rw [show (s.booth b).outputLanguage .a = none from hlanguage]; exact Ne.symm hformer) hn
      have hall : ((s.booth b).takers.filter fun c =>
          refuses ((s.booth b).outputLanguage .a) (s.booth c).config) = (s.booth b).takers := by
        rw [show (s.booth b).outputLanguage .a = none from hlanguage]
        exact List.filter_eq_self.2 fun _ _ => rfl
      rw [hall] at hbooths htold
      rw [show (s.booth b).outputLanguage .a = none from hlanguage] at htold
      rw [takeOutput_offAir hnone] at hkey
      refine ⟨_, hkey, fun x => ?_, htold.feedWork, hframe.trans (onlyBooths_feedWork _)⟩
      have hempty : ((s.booth b).takers.filter fun c => c ∉ (s.booth b).takers) = [] := by simp
      rw [feedWork_booth, hbooths x, hempty]
    · have hkey := exec_outputKey_taken (o := o) hr hp hsel hb fun _ => .inr hnone
      rw [takeOutput_offAir hnone, changeOutput_same hsame] at hkey
      exact selects_alone hkey hsel
  · intro s b y o g hr hp hg hgb hsel hy hnone hformer hn dropped
    have hkey := exec_outputKey_taken (o := o) hr hp hsel (fun e => by
      subst e
      exact ⟨by simp [hg, hgb rfl], by rw [show (s.booth b).config.outputB = some y from hy]; simp⟩) fun _ => .inr hnone
    obtain ⟨hbooths, htold, hframe⟩ := changeOutput_moves (former := (s.booth b).language) hsel
      (by rw [hy]; exact Ne.symm hformer) hn
    rw [hy, ← refusing_eq] at hbooths htold
    rw [visitNotice_map] at htold
    rw [takeOutput_offAir hnone] at hkey
    exact ⟨_, hkey, fun x => by rw [feedWork_booth, hbooths x], htold.feedWork, hframe.trans (onlyBooths_feedWork _)⟩

-- A switch of language on the air (R7)

section
variable {x y : Nat} {o new : Option Nat} (hne : x ≠ y)
  (hc : (s.language x).channel ≠ (s.language y).channel ∨ (s.language x).channel = none)

include hc in
/-- The channel of a language stays as it is when another language, on another channel, changes its owner. -/
theorem channel_setOwner_other {c : Nat} (hy : (s.language y).channel = some c) :
    (s.setOwner x o).channel c = s.channel c := by
  rw [channel_setOwner, State.ownerChannel, if_neg]
  rintro ⟨-, h⟩
  rcases hc with hc | hc
  · exact hc (h.trans hy.symm)
  · rw [hc] at h
    exact nomatch h

include hne hc

theorem ownerChannel_after_setOwner (c : Nat) :
    (s.setOwner x o).ownerChannel y new c =
      if (s.language y).channel = some c then s.ownerChannel y new c else s.ownerChannel x o c := by
  have hl : (s.setOwner x o).language y = s.language y := by simp [language_setOwner, Ne.symm hne]
  rw [State.ownerChannel, hl]
  by_cases hy : (s.language y).channel = some c
  · rw [channel_setOwner_other hc hy, if_pos hy, State.ownerChannel]
  · rw [if_neg fun h => hy h.2, if_neg hy, channel_setOwner]

theorem ownerRecords_after_setOwner :
    (s.setOwner x o).ownerRecords y new = s.ownerRecords y new ∧
      (s.setOwner x o).ownerNotices y new = s.ownerNotices y new := by
  have hl : (s.setOwner x o).language y = s.language y := by simp [language_setOwner, Ne.symm hne]
  unfold State.ownerRecords State.ownerNotices
  rw [hl]
  cases hchannel : (s.language y).channel with
  | none => exact ⟨rfl, rfl⟩
  | some c =>
    simp only [channel_setOwner_other hc hchannel, and_self]

end

theorem switchTo_free {b x y : Nat} (hne : x ≠ y) (hx : (s.language x).owner = some b) (hy : (s.language y).owner = none) :
    s.switchTo b (some x) y = some ((s.setOwner x none).setOwner y (some b)) := by
  unfold State.switchTo
  rw [if_neg (by simpa using hne), hy]
  simp only [State.release, hx, if_true]

theorem onlyBindings_switch (s : State) (x y : Nat) (o o' : Option Nat) :
    s.OnlyBindings ((s.setOwner x o).setOwner y o') :=
  (onlyBindings_setOwner s x o).trans (onlyBindings_setOwner _ y o')

/-- Settles O15: a switch, decided on the new language's owner, comes before the selection (R7, R38). -/
theorem outputKeysSwitch : Obligations.OutputKeysSwitch := by
  have hkey : ∀ {s : State} {b y n : Nat} {o : Output}, s.run = .hall → (s.booth b).link.state = .present →
      (o = .b → (s.booth b).granted.map (·.outputB) = some true) → (s.booth b).selected ≠ o →
      (s.booth b).outputLanguage o = some y → (s.booth b).onAirSeat = some n →
      exec (outputKey o b) s = .next (s.takeOutput b o).feedWork := fun {s b y n o} hr hp hb hsel hy hseat =>
    exec_outputKey_taken hr hp hsel
      (fun e => ⟨hb e, by subst e; rw [show (s.booth b).config.outputB = some y from hy]; simp⟩)
      (fun e => .inl (by subst e; rw [show (s.booth b).config.outputA = some y from hy]; simp))
  refine ⟨fun s b y n o hr hp hb hsel hy hseat hsame => ?_, ?_, ?_⟩
  · have hexec := hkey hr hp hb hsel hy hseat
    rw [takeOutput_onAir hseat hy, hsame, State.switchTo, if_pos rfl] at hexec
    dsimp only at hexec
    rw [changeOutput_same hy] at hexec
    exact selects_alone hexec hsel
  · intro s b x y n o g hr hp hg hgb hsel hy hseat hx hne hxo hyo hn dropped
    have hexec := hkey hr hp (fun e => by simp [hg, hgb e]) hsel hy hseat
    let switched := (s.setOwner x none).setOwner y (some b)
    have hbooth : ∀ z, switched.booth z = s.booth z := fun z => by simp [switched]
    rw [takeOutput_onAir hseat hy, hx, switchTo_free hne hxo hyo] at hexec
    obtain ⟨hbooths, htold, hframe⟩ := changeOutput_moves (s := switched) (b := b) (o := o) (former := some x)
      (by rwa [hbooth]) (by rw [hbooth, hy]; simpa using Ne.symm hne) (by rwa [hbooth])
    have hdropped : ((switched.booth b).takers.filter fun c =>
        refuses ((switched.booth b).outputLanguage o) (switched.booth c).config) = dropped := by
      simp only [hbooth, hy]
      rfl
    rw [hdropped] at hbooths htold
    rw [droppedRecords_congr (s := s) fun z _ => by rw [hbooth]] at htold
    simp only [hbooth, hy] at hbooths htold
    rw [visitNotice_map] at htold
    have hl : ∀ k, (switched.changeOutput b o (some x)).language k = switched.language k := fun k => by rw [hframe]; rfl
    have hch : ∀ c, (switched.changeOutput b o (some x)).channel c = switched.channel c := fun c => by rw [hframe]; rfl
    refine ⟨_, hexec, ?_, ?_, fun k hkx hky => ?_, fun z => ?_, fun hc => ⟨fun c => ?_, ?_⟩, ?_⟩
    · rw [feedWork_language, hl]
      simp [switched, language_setOwner, hne]
    · rw [feedWork_language, hl]
      simp [switched, language_setOwner, Ne.symm hne]
    · rw [feedWork_language, hl]
      simp [switched, language_setOwner, hkx, hky]
    · rw [feedWork_booth, hbooths z]
    · rw [feedWork_channel, hch]
      exact (channel_setOwner _ y (some b) c).trans (ownerChannel_after_setOwner hne hc c)
    · obtain ⟨hrecords, hnotices⟩ := ownerRecords_after_setOwner (o := none) (new := some b) hne hc
      have hfirst := (told_setOwner s x none).trans_ops (told_setOwner (s.setOwner x none) y (some b))
      rw [hrecords, hnotices] at hfirst
      exact (hfirst.trans_ops htold).feedWork
    · exact ((onlyBindings_switch s x y _ _).hall.trans hframe.hall).trans (onlyBooths_feedWork _).hall
  · intro s b y n z o g hr hp hg hgb hsel hy hseat hformer howner hz
    have hexec := hkey hr hp (fun e => by simp [hg, hgb e]) hsel hy hseat
    have hrefused : s.switchTo b (s.booth b).language y = none := by
      unfold State.switchTo
      rw [if_neg hformer, howner]
      exact if_neg hz
    rw [takeOutput_onAir hseat hy, hrefused] at hexec
    exact ⟨_, hexec, by simp [booth_flashLamp]; rfl, fun x hx => by simp [booth_flashLamp, hx],
      (told_flashLamp s b .occupied).feedWork, (onlyBooths_flashLamp s b .occupied).trans (onlyBooths_feedWork _)⟩

end Sys2Proof.Machine
end

section
/-!
PROOFS. Chapter 4: the input keys and BOOTH_INPUT (R68 to R74), settled.
-/
namespace Sys2Proof.Machine

variable {s : State}

theorem relayKeys_iff {x : Nat} :
    (s.booth x).relayKeys = true ↔
      (s.booth x).link.state = .present ∧ (s.booth x).granted.map (·.relay) = some true := by
  unfold Booth.relayKeys Booth.present
  cases (s.booth x).granted <;> simp

theorem selectByKey_held {x : Nat} {i : Input} (push : Bool) (h : (s.booth x).input = i) :
    s.selectByKey x i push = s := by
  rw [State.selectByKey, select_held _ push h]

/-- The key of an input. -/
def inputKey (x : Nat) : Input → Instr
  | .floor => .floorSel x
  | .relay b => .relaySel x b

/-- The row of an input key that is taken. -/
theorem exec_inputKey {x : Nat} {i : Input} (hr : s.run = .hall) (hk : (s.booth x).relayKeys = true)
    (hi : ∀ b, i = .relay b → 1 ≤ b ∧ b ≤ 16) :
    exec (inputKey x i) s = .next (s.selectByKey x i true).feedWork := by
  cases i with
  | floor => exact event_next rfl hr (if_pos hk)
  | relay b => exact event_next rfl hr (if_pos (by simp [hk, hi b rfl]))

/-- Settles O19, by what a selection is: held, carried out or refused. -/
theorem relayKeysSelect : Obligations.RelayKeysSelect := by
  refine ⟨fun s x _ => ⟨fun h => ?_, fun h => ?_, fun b h => ?_⟩, fun s x g i hr hp hg hk hne hmay => ?_,
    fun s x b g hr hp hg hk h1 h16 hne hmay => ?_⟩
  · have hkeys : ¬ (s.booth x).relayKeys = true := fun hkeys => by
      obtain ⟨hp, hk⟩ := relayKeys_iff.1 hkeys
      exact h.elim (fun h => h hp) fun h => h hk
    exact ⟨ignored_event s rfl fun _ => if_neg hkeys, ignored_event s rfl fun _ => if_neg hkeys,
      fun b => ignored_event s rfl fun _ => if_neg (by simp [hkeys])⟩
  · refine ignored_event s rfl fun _ => ?_
    unfold State.floorKey
    rw [selectByKey_held true h, ite_self]
  · refine ignored_event s rfl fun _ => ?_
    unfold State.relayKey
    rcases h with h | h | h
    · exact if_neg (by simp [h])
    · exact if_neg (by simp; omega)
    · rw [selectByKey_held true h, ite_self]
  · have hkeys : (s.booth x).relayKeys = true := relayKeys_iff.2 ⟨hp, by simp [hg, hk]⟩
    obtain ⟨t, ht, hbooths, htold, hframe⟩ :=
      select_carried_out s true hne fun b hb => ((hmay b hb).2).2
    have hexec := exec_inputKey hr hkeys fun b hb => ⟨(hmay b hb).1, ((hmay b hb).2).1⟩
    rw [State.selectByKey, ht] at hexec
    refine ⟨_, (congrArg (exec · s) ?_).trans hexec, fun y => by rw [feedWork_booth, hbooths y]; rfl, htold.feedWork,
      hframe.trans (onlyBooths_feedWork t)⟩
    cases i <;> rfl
  · have hkeys : (s.booth x).relayKeys = true := relayKeys_iff.2 ⟨hp, by simp [hg, hk]⟩
    obtain ⟨cause, hrefused⟩ := select_refused s true hne hmay
    have hexec : exec (.relaySel x b) s = _ := exec_inputKey (i := .relay b) hr hkeys fun y hy => by
      cases hy
      exact ⟨h1, h16⟩
    rw [State.selectByKey, hrefused] at hexec
    refine ⟨_, hexec, ?_, fun y hy => ?_, (told_flashLamp s x .refusal).feedWork,
      (onlyBooths_flashLamp s x .refusal).trans (onlyBooths_feedWork _)⟩
    · rw [feedWork_booth, booth_flashLamp, if_pos rfl]
      rfl
    · rw [feedWork_booth, booth_flashLamp, if_neg hy]

-- BOOTH_INPUT (R69, R74)

/-- A selection that may not be made fails the check that `relayRefusal` names. -/
theorem relayCheck_refused {x b : Nat} (h : ¬ MayRelay s x b) : s.relayCheck x b = some (relayRefusal s x b) := by
  have hfails : s.relayCheck x b ≠ none := fun e => h ((relayCheck_eq_none_iff s x b).1 e)
  unfold State.relayCheck relayRefusal at *
  simp only [Booth.present, decide_eq_false_iff_not, Bool.not_eq_eq_eq_not, Bool.not_true] at *
  split
  · rfl
  split
  · rfl
  split
  · rfl
  split
  · rfl
  split
  · rfl
  split
  · simp_all
  · rfl

theorem doBoothInput_taken {booth inputByte : Byte} {i : Input} (hok : s.boothOk booth = true)
    (h16 : inputByte.toNat ≤ 16) (hp : (s.booth booth.toNat).link.state = .present)
    (hi : i = if inputByte = 0x00 then .floor else .relay inputByte.toNat) :
    doBoothInput .ops [booth, inputByte] s =
      match s.select booth.toNat i true with
      | .unchanged => (s, ⟨.ok, 0x07 :: byte1 (s.booth booth.toNat).input.code⟩)
      | .selected t => (t, ⟨.ok, 0x06 :: byte1 (s.booth booth.toNat).input.code⟩)
      | .refused cause => (s, ⟨.wrongState, byte1 cause.code ++ byte1 (s.booth booth.toNat).input.code⟩) := by
  simp only [doBoothInput]
  rw [if_neg (by simp [hok]; omega), if_neg (by simp [Booth.present, hp]), ← hi]
  rfl

/-- Settles O21: the answer follows what the selection is. -/
theorem boothInputSelects : Obligations.BoothInputSelects := by
  refine ⟨fun s tag booth inputByte ht => refusedBy_own (name := .boothInput) rfl ht rfl rfl fun x h => ?_, ?_⟩
  · simp only [firstFailure_cons, firstFailure_nil] at h
    simp only [doBoothInput]
    exact refuse_of_check s (by simp [badBooth_eq]) h fun h => nomatch h
  intro s tag booth inputByte i ht hok h16 hi x before frame
  have hanswers : ∀ {r : Reply}, doBoothInput .ops [booth, inputByte] s = (s, r) →
      ∃ t, exec (.boothInput .ops tag [booth, inputByte]) s = .next t ∧ t.booths = s.booths ∧
        Answered s t .ops tag 0x17 r [] toNone ∧ frame t := fun hdo =>
    ⟨_, client_next (name := .boothInput) ht rfl rfl hdo, after_booths .., answered_after (Told.refl s),
      onlyBooths_after _ _ _ _ _⟩
  refine ⟨fun hp hheld => ?_, fun hp hne hmay => ?_, fun b hp hb hne hmay => ⟨relayCheck_refused hmay, ?_⟩, fun hp => ?_⟩
  · refine hanswers ?_
    rw [doBoothInput_taken hok h16 hp hi, select_held s true hheld]
  · obtain ⟨t, hselect, hbooths, htold, hframe⟩ := select_carried_out s true hne hmay
    have hdo := doBoothInput_taken hok h16 hp hi
    rw [hselect] at hdo
    exact ⟨_, client_next (name := .boothInput) ht rfl rfl hdo, fun y => by rw [after_booth, hbooths y]; rfl,
      answered_after htold, hframe.trans (onlyBooths_after _ _ _ _ _)⟩
  · refine hanswers ?_
    have hselect : s.select booth.toNat i true = .refused (relayRefusal s x b) := by
      subst hb
      simp only [State.select]
      rw [if_neg hne, show s.relayCheck booth.toNat b = _ from relayCheck_refused hmay]
    rw [doBoothInput_taken hok h16 hp hi, hselect]
  · refine hanswers ?_
    simp only [doBoothInput]
    rw [if_neg (by simp [hok]; omega), if_pos (by simpa [Booth.present] using hp)]

end Sys2Proof.Machine
end

section
/-!
PROOFS. Chapter 5: the poll cycle and joining (R87 to R94), settled.
-/
namespace Sys2Proof.Machine

variable {s : State}

-- What touches the booth link alone

/-- But for the booths, the ports, the feed link and the line of the booth link, `t` is as `s`. -/
def State.OnlyLink (s t : State) : Prop :=
  t = { s with
    booths := t.booths, opsPort := t.opsPort, deskAPort := t.deskAPort, deskBPort := t.deskBPort, line := t.line,
    feed := t.feed }

theorem State.OnlyLink.trans {s t u : State} (h : s.OnlyLink t) (h' : t.OnlyLink u) : s.OnlyLink u := by
  unfold State.OnlyLink at *
  rw [h] at h'
  exact h'

theorem State.OnlyBooths.link {s t : State} (h : s.OnlyBooths t) : s.OnlyLink t := by
  unfold State.OnlyBooths at h
  unfold State.OnlyLink
  rw [h]

/-- The slot of the booth link is over, its answer having come or not (R87). -/
def State.slotOver (s : State) : State := { s with line := none }

/-- An answer in the slot of its booth is taken, and the slot is over. -/
theorem exec_inSlot {i : Instr} {b : Nat} {own : State → State}
    (hi : exec i s = .next (s.hallEvent fun s => s.inSlot b own)) (h : s.Awaits b) :
    exec i s = .next (own s.slotOver).feedWork := by
  obtain ⟨hr, hslot⟩ := h
  obtain ⟨⟨x, m⟩, hline, hx⟩ := Option.map_eq_some_iff.1 hslot
  cases hx
  exact event_next hi hr (inSlot_of_line s hline)

@[simp] theorem slotOver_boothFitted (b : Nat) : s.slotOver.boothFitted b = s.boothFitted b := rfl
@[simp] theorem slotOver_booth (b : Nat) : s.slotOver.booth b = s.booth b := rfl

-- A write of a link record

theorem told_setLink (s : State) (b : Nat) (k : Link) :
    Told s (s.setLink b k) (if k.state = (s.booth b).link.state then [] else [.booth b]) toNone := by
  have hview : ({ s.booth b with link := k } : Booth).view = (s.booth b).view ↔ k.state = (s.booth b).link.state :=
    ⟨congrArg BoothView.link, fun e => by
      rw [Booth.view, Booth.view, e]
      rfl⟩
  have h := told_setBooth s b { s.booth b with link := k }
  simp only [hview] at h
  exact h

theorem booth_setLink (s : State) (b : Nat) (k : Link) (x : Nat) :
    (s.setLink b k).booth x = if x = b then { s.booth b with link := k } else s.booth x := booth_setBooth s b x _

theorem onlyBooths_setLink (s : State) (b : Nat) (k : Link) : s.OnlyBooths (s.setLink b k) := onlyBooths_setBooth s b _

/-- A row of the booth link that writes one link record alone. -/
theorem writes_link {i : Instr} {u : State} {b : Nat} {k : Link} (hi : exec i s = .next (u.setLink b k).feedWork)
    (hu : ∀ x, u.booth x = s.booth x) (hp : ∀ p, u.port p = s.port p) :
    ∃ t, exec i s = .next t ∧ t.booth b = { s.booth b with link := k } ∧ (∀ x, x ≠ b → t.booth x = s.booth x) ∧
      Told s t (if k.state = (s.booth b).link.state then [] else [.booth b]) toNone ∧ u.OnlyBooths t := by
  refine ⟨_, hi, ?_, fun x hx => ?_, ?_, (onlyBooths_setLink u b k).trans (onlyBooths_feedWork _)⟩
  · rw [feedWork_booth, booth_setLink, if_pos rfl, hu]
  · rw [feedWork_booth, booth_setLink, if_neg hx, hu]
  · have htold := (Told.of_ports hp).trans_silent (told_setLink u b k)
    rw [hu, List.nil_append] at htold
    exact htold.feedWork

-- No acknowledgement of a GRANT (R91)

theorem unacknowledged {i : Instr} {b : Nat} (hi : exec i s = .next (s.slotOver.noAcknowledgement b).feedWork)
    (hn : (s.booth b).link.state = .negotiating) :
    ∃ t, exec i s = .next t ∧
      t.booth b =
        (if 2 ≤ (s.booth b).link.grantPolls then { s.booth b with link := { (s.booth b).link with state := .absent } }
         else s.booth b) ∧
      (∀ x, x ≠ b → t.booth x = s.booth x) ∧
      Told s t (if 2 ≤ (s.booth b).link.grantPolls then [.booth b] else []) toNone ∧ s.slotOver.OnlyBooths t := by
  unfold State.noAcknowledgement at hi
  rw [slotOver_booth] at hi
  by_cases hpolls : 2 ≤ (s.booth b).link.grantPolls
  · rw [if_pos hpolls] at hi
    obtain ⟨t, ht, hbooth, hothers, htold, hframe⟩ := writes_link (u := s.slotOver)
      (k := { (s.booth b).link with state := .absent }) hi (fun _ => rfl) (fun p => by cases p <;> rfl)
    rw [if_neg (by rw [hn]; exact LinkState.noConfusion)] at htold
    rw [if_pos hpolls, if_pos hpolls]
    exact ⟨t, ht, hbooth, hothers, htold, hframe⟩
  · rw [if_neg hpolls] at hi
    rw [if_neg hpolls, if_neg hpolls]
    exact ⟨_, hi, feedWork_booth .., fun x _ => feedWork_booth ..,
      (Told.of_ports (t := s.slotOver) fun p => by cases p <;> rfl).feedWork, onlyBooths_feedWork _⟩

-- GRANT_ACK (R45, R91, R92)

theorem seat_joinSeat (granted n m : Nat) (v : Booth) :
    (joinSeat granted n v).seat m =
      if m = n then ⟨if n ≤ granted then .off else .absent, 0, false, (v.seat n).liveMinutes⟩ else v.seat m := by
  unfold joinSeat
  rw [seat_setSeat]

/-- Settles O24: the acknowledged grant joins the booth, whose link state the reserved view holds. -/
theorem grantAckJoins : Obligations.GrantAckJoins := by
  intro s b taken g hawaits hfitted hn hgrant v
  have hexec (own : State → State) (h : s.slotOver.takeGrantAck b taken = own s.slotOver) :
      exec (.grantAck b taken) s = .next (own s.slotOver).feedWork := by
    rw [exec_inSlot (i := .grantAck b taken) rfl hawaits, h]
  refine ⟨fun htaken => ?_, fun htaken => ?_⟩
  · let w := joinSeat g.seats 3 (joinSeat g.seats 2 (joinSeat g.seats 1 v))
    let joined : Booth :=
      { w with
        link := { v.link with state := .present, missed := 0, lastSequence := 1 }
        granted := some g, selected := .a, handover := none, stack := .initial }
    have hjoin := hexec (fun s => s.join b g) (by simp [State.takeGrantAck, hfitted, hn, hgrant, htaken])
    have hread : ∀ x, (s.slotOver.join b g).booth x = if x = b then joined else s.booth x := fun x => by
      simp only [State.join, notifyOps_eq, notify_booth, booth_setBooth]
      rfl
    have hview : joined.view ≠ (s.slotOver.booth b).view := fun e => by
      have := congrArg BoothView.link e
      rw [show (s.slotOver.booth b).view.link = .negotiating from hn] at this
      exact nomatch this
    have htold := (((Told.of_ports (s := s) (t := s.slotOver) fun p => by cases p <;> rfl).silent.setBooth hview).notifyOps
      (.boothJoined b g)).feedWork
    refine ⟨_, hjoin, fun n h1 h3 => ?_, ?_, fun x hx => ?_, htold, ?_⟩
    · rw [feedWork_booth, hread, if_pos rfl]
      show w.seat n = _
      have hn : n = 1 ∨ n = 2 ∨ n = 3 := by omega
      rcases hn with rfl | rfl | rfl <;> simp [w, seat_joinSeat]
    · rw [feedWork_booth, hread, if_pos rfl]
      rfl
    · rw [feedWork_booth, hread, if_neg hx]
    · exact ((onlyBooths_setBooth s.slotOver b joined).trans (onlyBooths_notify _ .ops (.boothJoined b g))).trans
        (onlyBooths_feedWork _)
  · refine unacknowledged (hexec (fun s => s.noAcknowledgement b) ?_) hn
    have hne : ¬ g = taken := fun e => htaken e.symm
    simp [State.takeGrantAck, hfitted, hn, hgrant, hne, State.unanswered]

-- The end of a cycle (R93)

/-- A booth's link record at the end of a cycle. -/
def waited (k : Link) : Link :=
  if k.state = .faultWait then
    if k.waitRemaining ≤ 1 then { k with state := .absent, waitRemaining := 0 }
    else { k with waitRemaining := k.waitRemaining - 1 }
  else k

theorem countWait_eq (s : State) (b : Nat) :
    s.countWait b = if (s.booth b).link.state = .faultWait then s.setLink b (waited (s.booth b).link) else s := by
  unfold State.countWait waited
  by_cases hwait : (s.booth b).link.state = .faultWait
  · simp only [hwait, if_true, State.endFaultWait]
    split <;> rfl
  · simp only [hwait, if_false]

theorem visits_countWait :
    Visits State.booth State.countWait (fun _ v => { v with link := waited v.link })
      (fun b v => if decide (v.link.state = .faultWait ∧ v.link.waitRemaining ≤ 1) then [.booth b] else [])
      (fun _ _ => []) where
  reads s i j := by
    rw [countWait_eq]
    by_cases hwait : (s.booth i).link.state = .faultWait
    · rw [if_pos hwait, booth_setLink]
    · rw [if_neg hwait]
      split
      next h => subst h; simp [waited, hwait]
      next => rfl
  told s i := by
    rw [countWait_eq]
    by_cases hwait : (s.booth i).link.state = .faultWait
    · rw [if_pos hwait]
      have h := told_setLink s i (waited (s.booth i).link)
      by_cases hlast : (s.booth i).link.waitRemaining ≤ 1
      · rw [if_neg (by simp [waited, hwait, hlast])] at h
        simpa only [hwait, hlast, and_self, decide_true, if_true] using h.silent
      · rw [if_pos (by simp [waited, hwait, hlast])] at h
        simpa only [hwait, hlast, and_false, decide_false, Bool.false_eq_true, if_false] using h.silent
    · rw [if_neg hwait]
      simpa only [hwait, false_and, decide_false, Bool.false_eq_true, if_false] using (Told.refl s).silent

theorem booth_endCycle (s : State) (x : Nat) :
    s.endCycle.booth x = if x ∈ List.range' 1 16 then { s.booth x with link := waited (s.booth x).link } else s.booth x :=
  visits_countWait.reads_foldl List.nodup_range' s x

theorem told_endCycle (s : State) :
    Told s s.endCycle
      (((List.range' 1 16).filter fun x =>
        (s.booth x).link.state = .faultWait ∧ (s.booth x).link.waitRemaining ≤ 1).map .booth) toNone := by
  have h := visits_countWait.told_foldl (l := List.range' 1 16) List.nodup_range' s
  rw [flatMap_ite_singleton (fun x => decide ((s.booth x).link.state = .faultWait ∧ (s.booth x).link.waitRemaining ≤ 1))]
    at h
  rw [show ((List.range' 1 16).flatMap fun _ => ([] : List Notice)) = [] by simp, toOps_nil] at h
  exact h

theorem onlyBooths_endCycle (s : State) : s.OnlyBooths s.endCycle :=
  (State.OnlyBooths.refl s).foldl _ fun u x => by
    rw [countWait_eq]
    split
    · exact onlyBooths_setLink u x _
    · exact .refl u

-- A slot begins (R87, R91, R94)

theorem booth_beginSlot (s : State) (b x : Nat) (h : s.boothFitted b = true) :
    (s.beginSlot b).booth x =
      if x = b ∧ (s.booth b).link.state = .negotiating then
        { s.booth b with link := { (s.booth b).link with grantPolls := (s.booth b).link.grantPolls + 1 } }
      else s.booth x := by
  unfold State.beginSlot
  rw [if_pos h]
  dsimp only
  split
  next hn =>
    rw [booth_setLink]
    by_cases hx : x = b
    · rw [if_pos hx, if_pos ⟨hx, hn⟩]
      rfl
    · rw [if_neg hx, if_neg fun h => hx h.1]
      rfl
  next hn =>
    rw [if_neg fun h => hn h.2]
    rfl

theorem line_beginSlot (s : State) (b : Nat) (h : s.boothFitted b = true) :
    (s.beginSlot b).line = (s.slotMessage b).map fun m => (b, m) := by
  unfold State.beginSlot
  rw [if_pos h]
  dsimp only
  split
  · exact setBooth_line ..
  · rfl

theorem told_beginSlot (s : State) (b : Nat) : Told s (s.beginSlot b) [] toNone := by
  have hline : ∀ m, Told s { s with line := m } [] toNone := fun m => Told.of_ports fun p => by cases p <;> rfl
  unfold State.beginSlot
  dsimp only
  split
  · split
    next hn =>
      have h := (hline _).trans_silent (told_setLink { s with line := (s.slotMessage b).map fun m => (b, m) } b
        { (s.booth b).link with grantPolls := (s.booth b).link.grantPolls + 1 })
      rwa [if_pos (by rfl)] at h
    next => exact hline _
  · exact hline _

theorem onlyLink_beginSlot (s : State) (b : Nat) : s.OnlyLink (s.beginSlot b) := by
  unfold State.beginSlot
  dsimp only
  split
  · split
    · exact State.OnlyLink.trans (t := { s with line := _ }) rfl (onlyBooths_setLink _ _ _).link
    · rfl
  · rfl

theorem endFaultWait_of_waiting {b : Nat} (h : (s.booth b).link.state = .faultWait) :
    s.endFaultWait b = s.setLink b { (s.booth b).link with state := .absent, waitRemaining := 0 } := by
  unfold State.endFaultWait
  exact if_pos h

theorem endFaultWait_of_not_waiting {b : Nat} (h : (s.booth b).link.state ≠ .faultWait) : s.endFaultWait b = s := by
  unfold State.endFaultWait
  exact if_neg h

theorem boothSlot_one (s : State) : s.boothSlot 1 = s.endCycle.beginSlot 1 := by
  unfold State.boothSlot
  rw [if_pos rfl]

theorem boothSlot_ne {b : Nat} (h : b ≠ 1) : s.boothSlot b = s.beginSlot b := by
  unfold State.boothSlot
  rw [if_neg h]

theorem beginSlot_unfitted {b : Nat} (h : s.boothFitted b = false) : s.beginSlot b = s.slotOver := by
  unfold State.beginSlot
  rw [if_neg (by simp [h])]
  rfl

/-- Settles O27: a wait that runs out, and the end of a cycle (`visits_countWait`). -/
theorem faultWaitsEnd : Obligations.FaultWaitsEnd := by
  refine ⟨fun s b _ hwait => ignored_event s rfl fun _ => endFaultWait_of_not_waiting hwait,
    fun s b hr hwait => ?_, fun s hr => ?_⟩
  · obtain ⟨t, ht, hbooth, hothers, htold, hframe⟩ := writes_link (s := s) (u := s) (i := .faultWaitEnd b)
      (event_next rfl hr (endFaultWait_of_waiting hwait)) (fun _ => rfl) (fun _ => rfl)
    rw [if_neg (by rw [hwait]; exact LinkState.noConfusion)] at htold
    exact ⟨t, ht, hbooth, hothers, htold, hframe⟩
  · have hexec : exec (.boothSlot 1) s = .next (s.endCycle.beginSlot 1).feedWork := event_next rfl hr (boothSlot_one s)
    have htold := (told_endCycle s).trans_silent (told_beginSlot s.endCycle 1)
    rw [List.append_nil] at htold
    refine ⟨_, hexec, fun x h2 h16 => ?_, htold.feedWork,
      ((onlyBooths_endCycle s).link.trans (onlyLink_beginSlot _ 1)).trans (onlyBooths_feedWork _).link⟩
    have hslot : (s.endCycle.beginSlot 1).booth x = s.endCycle.booth x := by
      by_cases hfitted : s.endCycle.boothFitted 1 = true
      · rw [booth_beginSlot _ _ _ hfitted, if_neg fun h => by omega]
      · rw [beginSlot_unfitted (by simpa using hfitted), slotOver_booth]
    rw [feedWork_booth, hslot, booth_endCycle, if_pos (by simp; omega)]
    unfold waited
    dsimp only
    split <;> rfl

-- The lamps (R40, R51, R84, R99)

theorem requestLamp_eq (v : Booth) (n : Nat) :
    v.requestLamp n = v.handover.any fun r => r.requester = n ∨ v.onAirSeat = some n := by
  unfold Booth.requestLamp
  cases v.handover with
  | none => rfl
  | some r => simp [eq_comm]

/-- The lamps of a PRESENT booth are those that the rules light. -/
theorem lampsPresent_eq (s : State) (b : Nat) : s.lampsPresent b = lampsShown s b := by
  unfold State.lampsPresent lampsShown lampFlash Booth.noLiveSeat Seat.onAir lampIf
  simp only [requestLamp_eq]
  cases (s.booth b).input <;> simp

theorem lampsShown_congr {t : State} {b : Nat} (hb : t.booth b = s.booth b)
    (hseats : ∀ x n, (t.booth x).seat n = (s.booth x).seat n) : lampsShown t b = lampsShown s b := by
  unfold lampsShown
  simp only [hb, hseats]

theorem seat_endCycle (s : State) (x n : Nat) : (s.endCycle.booth x).seat n = (s.booth x).seat n := by
  rw [booth_endCycle]
  split <;> rfl

theorem endCycle_profile (s : State) : s.endCycle.profile = s.profile := by
  rw [onlyBooths_endCycle s]

/-- Settles O22: the message of the slot is that of the link state, at booth 1 as the end of the cycle leaves it. -/
theorem boothSlotSends : Obligations.BoothSlotSends := by
  refine ⟨fun s b hr hfitted hb => ?_, fun s b hr hfitted hb => ?_, fun s hr hfitted => ?_,
    fun s b => ⟨fun hp => ?_, fun hp => ?_⟩, fun s b i advert sequence events hr hline hi => ?_⟩
  · have hexec : exec (.boothSlot b) s = _ := event_next rfl hr (boothSlot_ne hb)
    refine ⟨_, hexec, ?_, ?_, fun x hx => ?_, (told_beginSlot s b).feedWork,
      (onlyLink_beginSlot s b).trans (onlyBooths_feedWork _).link⟩
    · rw [feedWork_line, line_beginSlot s b hfitted, State.slotMessage]
      cases (s.booth b).link.state <;> simp [Function.comp_def]
    · rw [feedWork_booth, booth_beginSlot s b b hfitted]
      split
      next h => simp [h.2]
      next h => rw [if_neg fun e => h ⟨rfl, e⟩]
    · rw [feedWork_booth, booth_beginSlot s b x hfitted, if_neg fun h => hx h.1]
  · have hexec : exec (.boothSlot b) s = _ := event_next rfl hr ((boothSlot_ne hb).trans (beginSlot_unfitted hfitted))
    exact ⟨_, hexec, feedWork_frame _⟩
  · have hexec : exec (.boothSlot 1) s = _ := event_next rfl hr (boothSlot_one s)
    have hfitted' : s.endCycle.boothFitted 1 = true := by
      rw [State.boothFitted, endCycle_profile]
      exact hfitted
    have hbooth := (booth_endCycle s 1).trans (if_pos (List.mem_range'_1.2 (by omega)))
    refine ⟨_, hexec, ?_, ?_⟩
    · rw [feedWork_line, line_beginSlot _ 1 hfitted', State.slotMessage, hbooth]
      dsimp only
      cases hstate : (s.booth 1).link.state with
      | absent => simp [waited, hstate]
      | negotiating => simp [waited, hstate, Function.comp_def]
      | present =>
        have hsame : s.endCycle.booth 1 = s.booth 1 := by
          rw [hbooth]
          simp [waited, hstate]
        have hlamps : s.endCycle.lamps 1 = lampsShown s 1 := by
          rw [lamps_of_present _ (by rw [hsame, hstate]), lampsPresent_eq,
            lampsShown_congr hsame (seat_endCycle s)]
        simp [waited, hstate, hlamps]
      | faultWait =>
        by_cases hlast : (s.booth 1).link.waitRemaining ≤ 1 <;> simp [waited, hstate, hlast]
    · rw [feedWork_booth, booth_beginSlot _ 1 1 hfitted', hbooth]
      cases hstate : (s.booth 1).link.state with
      | absent | negotiating | present => simp [waited, hstate]
      | faultWait =>
        by_cases hlast : (s.booth 1).link.waitRemaining ≤ 1 <;> simp [waited, hstate, hlast]
  · rw [lamps_of_present s hp, lampsPresent_eq]
  · rw [lamps_of_not_present s hp]
    rfl
  · have hnot : ∀ {own : State → State}, exec i s = .next (s.hallEvent fun s => s.inSlot b own) →
        ∃ t, exec i s = .next t ∧ t = { s with feed := t.feed } := fun h =>
      ⟨_, event_next h hr (inSlot_of_ne s hline), feedWork_frame s⟩
    rcases hi with rfl | rfl | rfl | rfl
    · exact hnot rfl
    · exact hnot rfl
    · exact hnot rfl
    · exact hnot rfl

end Sys2Proof.Machine
end

section
/-!
PROOFS. The loss of a booth (R46, R82, R97, R98), ADVERTISE and SLOT_UNANSWERED (R89 to R95), settled.
-/
namespace Sys2Proof.Machine

variable {s : State}

-- The booth controller's part of a loss (R46)

/-- What the booth controller makes of the loss of booth `b`. -/
structure ControllerLost (s t : State) (b : Nat) : Prop where
  seats    : ∀ n, 1 ≤ n → n ≤ 3 → (t.booth b).seat n = ⟨.off, 0, false, ((s.booth b).seat n).liveMinutes⟩
  booth    : t.booth b =
    { s.booth b with
      seats := (t.booth b).seats, granted := none, selected := .a, handover := none, flash := ⟨0, 0, 0⟩ }
  others   : ∀ x, x ≠ b → t.booth x = s.booth x
  released : (s.booth b).onAirSeat ≠ none → s.Released t b (s.booth b).language ∧
    ∀ c, t.channel c = s.releasedChannel b (s.booth b).language c
  kept     : (s.booth b).onAirSeat = none → t.languages = s.languages ∧ t.channels = s.channels
  told     : ToldBeside s t b (if (s.booth b).onAirSeat = none then [] else s.releaseRecords b (s.booth b).language)
    (if (s.booth b).onAirSeat = none then [] else s.releaseNotices b (s.booth b).language)
  hall     : s.OnlyHall t

/-- The seats 1 to 3 of a lost booth: OFF, turn counter 0, overdue mark clear (R46). -/
def Booth.resetSeats (w : Booth) : Booth :=
  let reset (n : Nat) (w : Booth) : Booth := w.setSeat n { w.seat n with state := .off, turn := 0, overdue := false }
  reset 3 (reset 2 (reset 1 w))

theorem seat_resetSeats (w : Booth) {n : Nat} (h1 : 1 ≤ n) (h3 : n ≤ 3) :
    w.resetSeats.seat n = ⟨.off, 0, false, (w.seat n).liveMinutes⟩ := by
  unfold Booth.resetSeats
  have hn : n = 1 ∨ n = 2 ∨ n = 3 := by omega
  rcases hn with rfl | rfl | rfl <;> simp [seat_setSeat]

/-- A booth record after the booth controller's part of its loss. -/
def Booth.lost (w : Booth) : Booth :=
  { w.resetSeats with granted := none, selected := .a, handover := none, flash := ⟨0, 0, 0⟩ }

theorem seat_lost (w : Booth) {n : Nat} (h1 : 1 ≤ n) (h3 : n ≤ 3) :
    w.lost.seat n = ⟨.off, 0, false, (w.seat n).liveMinutes⟩ := seat_resetSeats w h1 h3

/-- A loss overwrites seats and handover state, whatever they were. -/
theorem lost_with {v w : Booth} (h : w = { v with seats := w.seats, handover := w.handover }) :
    w.lost =
      { v with seats := w.lost.seats, granted := none, selected := .a, handover := none, flash := ⟨0, 0, 0⟩ } :=
  congrArg (fun z : Booth =>
    { z with seats := w.lost.seats, granted := none, selected := .a, handover := none, flash := ⟨0, 0, 0⟩ }) h

/-- The state with an on-air seat of booth `b` gone OFF, as the first thing of its loss. -/
def State.silenced (s : State) (b : Nat) : State :=
  match (s.booth b).onAirSeat with
  | none => s
  | some n => s.goOffAir b n (s.booth b).language

theorem controllerLoss_eq (s : State) (b : Nat) :
    s.controllerLoss b = (s.silenced b).setBooth b ((s.silenced b).booth b).lost := by
  unfold State.controllerLoss State.silenced
  rfl

theorem liveMinutes_offAir {n : Nat} (v : Booth) (m : Nat) :
    (({ v.setSeat n { v.seat n with state := .off, overdue := false } with handover := none } : Booth).seat m).liveMinutes =
      (v.seat m).liveMinutes := by
  show ((v.setSeat n { v.seat n with state := .off, overdue := false }).seat m).liveMinutes = _
  rw [seat_setSeat]
  split
  next hm => rw [hm]
  next => rfl

theorem controllerLost (s : State) (b : Nat) : ControllerLost s (s.controllerLoss b) b := by
  rw [controllerLoss_eq]
  cases hseat : (s.booth b).onAirSeat with
  | none =>
    have hs : s.silenced b = s := by simp only [State.silenced, hseat]
    rw [hs]
    refine ⟨fun n h1 h3 => ?_, ?_, fun x hx => by simp [booth_setBooth, hx], fun h => absurd hseat h,
      fun _ => ⟨setBooth_languages .., setBooth_channels ..⟩, ?_, (onlyBooths_setBooth s b _).hall⟩
    · rw [booth_setBooth_same]
      exact seat_lost _ h1 h3
    · rw [booth_setBooth_same]
      exact lost_with rfl
    · simpa only [hseat, if_true] using told_beside_setBooth s b _
  | some m =>
    obtain ⟨hm1, hm3, hon⟩ := onAirSeat_some hseat
    have hs : s.silenced b = s.goOffAir b m (s.booth b).language := by simp only [State.silenced, hseat]
    have hoff := offAir_goOffAir hm1 hm3 hon
    rw [hs]
    generalize s.goOffAir b m (s.booth b).language = u at hoff
    refine ⟨fun n h1 h3 => ?_, ?_, fun x hx => by simp [booth_setBooth, hx, hoff.others x hx],
      fun _ => ⟨fun k => by rw [setBooth_language, hoff.released k], fun c => by rw [setBooth_channel, hoff.channels c]⟩,
      (fun h => nomatch h.symm.trans hseat), ?_, hoff.hall.trans (onlyBooths_setBooth _ b _).hall⟩
    · rw [booth_setBooth_same, seat_lost _ h1 h3, hoff.booth, liveMinutes_offAir]
    · rw [booth_setBooth_same]
      exact lost_with (by rw [hoff.booth]; rfl)
    · have hgone : ToldBeside s u b (s.releaseRecords b (s.booth b).language)
          (s.releaseNotices b (s.booth b).language) :=
        ⟨[.booth b], by simp, hoff.told.same_records fun r => by simp [or_comm]⟩
      simpa [hseat] using hgone.trans (told_beside_setBooth _ b _)

-- The relay map's part of a loss (R82)

/-- What the relay map makes of the loss of booth `b`. -/
structure RelayLost (s t : State) (b : Nat) : Prop where
  booth  : t.booth b = { s.booth b with input := .floor, stack := .initial, takers := [] }
  others : ∀ x, x ≠ b → t.booth x =
    { s.booth x with
      input := if x ∈ (s.booth b).takers then .floor else (s.booth x).input
      stack := if x ∈ (s.booth b).takers then (s.booth x).stack.push (.relay b) else (s.booth x).stack
      takers := if (s.booth b).input = .relay x then setDel b (s.booth x).takers else (s.booth x).takers }
  told   : ToldBeside s t b (s.droppedRecords (s.booth b).takers ++ s.leftRecords b)
    ((s.booth b).takers.map fun x => .relayDropped x b .sourceLost)
  frame  : s.OnlyBooths t

theorem relayLost (s : State) {b : Nat} (hn : (s.booth b).takers.Nodup) (hb : b ∉ (s.booth b).takers) :
    RelayLost s (s.relayLoss b) b := by
  let dropped := (s.booth b).takers.foldl (fun s c => s.dropTaker b .sourceLost c) s
  obtain ⟨hdropped, htold, hframe⟩ := (visitsTaker_dropTaker b .sourceLost).foldl hn s
  rw [List.filter_eq_self.2 fun _ _ => rfl] at hdropped htold
  have hempty : (s.booth b).takers.filter (fun c => c ∉ (s.booth b).takers) = [] := by simp
  have hinput : (dropped.booth b).input = (s.booth b).input := hdropped.input_of_not_mem hb
  have hdroppedB : dropped.booth b = { s.booth b with takers := [] } := by
    rw [hdropped b, if_neg hb, if_neg hb, if_pos rfl, hempty]
  have hleft : ToldBeside dropped (dropped.leaveSource b) b (s.leftRecords b) [] := by
    unfold State.leaveSource State.leftRecords
    rw [hinput]
    cases hi : (s.booth b).input with
    | floor => exact (Told.refl dropped).silent.beside
    | relay a =>
      dsimp only
      by_cases ha : a = b
      · subst ha
        have hsame : s.takerRecords a (setDel a (s.booth a).takers) = [] := by
          have hkeep : (s.booth a).takers.filter (fun j => decide (j ≠ a)) = (s.booth a).takers :=
            List.filter_eq_self.2 fun x hx => decide_eq_true fun e => hb (e ▸ hx)
          unfold State.takerRecords setDel
          rw [if_pos hkeep]
        rw [hsame]
        exact told_beside_setBooth _ _ _
      · have htakers : (dropped.booth a).takers = (s.booth a).takers := by rw [hdropped a, if_neg ha]
        have h := told_setTakers dropped a (setDel b (dropped.booth a).takers)
        rw [htakers, takerRecords_congr htakers] at h
        rw [htakers]
        exact h.silent.beside
  have hreset := told_beside_setBooth (dropped.leaveSource b) b
    { (dropped.leaveSource b).booth b with input := .floor, stack := .initial }
  refine ⟨?_, fun x hx => ?_, ?_, (hframe.trans (onlyBooths_leaveSource dropped b)).trans (onlyBooths_setBooth _ b _)⟩
  · show ((dropped.leaveSource b).setBooth b _).booth b = _
    rw [booth_setBooth_same, booth_leaveSource_with, hdroppedB]
    simp [setDel]
  · show ((dropped.leaveSource b).setBooth b _).booth x = _
    rw [booth_setBooth, if_neg hx, booth_leaveSource_with, hinput, hdropped x, if_neg hx]
  · have h := (htold.trans hleft).trans hreset
    rw [List.append_nil, List.append_nil, List.append_nil] at h
    exact h

-- The latches of the ports (R97, R100, R101)

theorem port_clearPresence (s : State) (b : Nat) (p : Port) :
    (s.clearPresence b).port p = { s.port p with presence := tabSet false (s.port p).presence b false } := by
  cases p <;> rfl

theorem port_setFault (s : State) (b : Nat) (p : Port) :
    (s.setFault b).port p = { s.port p with faults := tabSet false (s.port p).faults b true } := by
  cases p <;> rfl

/-- The port with the presence and fault latches written. -/
def PortState.withLatches (q : PortState) (presence faults : Tab Bool) : PortState :=
  { q with presence := presence, faults := faults }

section
variable (q : PortState) (presence faults : Tab Bool)

theorem sendNotice_withLatches :
    (q.withLatches presence faults).sendNotice = q.sendNotice.withLatches presence faults := by
  unfold PortState.sendNotice
  cases hn : q.notices with
  | nil => simp only [PortState.withLatches, hn]
  | cons n rest => simp only [PortState.withLatches, hn]

theorem chooseFrame_withLatches :
    (q.withLatches presence faults).chooseFrame = q.chooseFrame.withLatches presence faults := by
  have hsend := sendNotice_withLatches q presence faults
  unfold PortState.chooseFrame
  show (match q.sending with
    | some _ => _
    | none =>
      match q.inHand with
      | some h => if h.begun then (if q.hold then _ else _) else if h.ahead = 0 || q.hold then _ else _
      | none => if q.hold then _ else _) = _
  cases q.sending with
  | some _ => rfl
  | none =>
    cases q.inHand with
    | none =>
      dsimp only
      split
      · rfl
      · exact hsend
    | some h =>
      dsimp only
      split
      · split
        · rfl
        · exact hsend
      · split
        · rfl
        · exact hsend

theorem post_withLatches (n : Notice) :
    (q.withLatches presence faults).post n = (q.post n).withLatches presence faults := by
  have henqueue : (q.withLatches presence faults).enqueue n = (q.enqueue n).withLatches presence faults := by
    unfold PortState.enqueue
    show (if q.notices.length < Config.noticeLimit then _ else _) = _
    split <;> rfl
  unfold PortState.post
  rw [henqueue, chooseFrame_withLatches]

theorem told_withLatches (ns : List Notice) :
    (q.withLatches presence faults).told ns = (q.told ns).withLatches presence faults := by
  unfold PortState.told
  induction ns generalizing q with
  | nil => rfl
  | cons n rest ih => rw [List.foldl_cons, List.foldl_cons, post_withLatches, ih]

theorem clearAll_withLatches (rs : List RecordName) :
    (q.withLatches presence faults).clearAll rs = (q.clearAll rs).withLatches presence faults := by
  rw [clearAll_eq, clearAll_eq]
  rfl

end

/-- A port's notices and reservations leave its latches as they are. -/
theorem latches_told {t : State} {rs : List RecordName} {ns : Port → List Notice} (h : Told s t rs ns) (p : Port) :
    (t.port p).presence = (s.port p).presence ∧ (t.port p).faults = (s.port p).faults := by
  have hself : t.port p = (((s.port p).clearAll rs).told (ns p)).withLatches (s.port p).presence (s.port p).faults := by
    rw [← told_withLatches, ← clearAll_withLatches]
    exact h p
  rw [hself]
  exact ⟨rfl, rfl⟩

section
variable {t u : State} {rs rs' : List RecordName} {ns ns' : List Notice}

theorem told_butLatches (h : Told s t rs (toOps ns)) : ToldButLatches s t rs ns := by
  intro p
  obtain ⟨hpresence, hfaults⟩ := latches_told h p
  rw [← h p, ← hpresence, ← hfaults]

theorem toldButLatches_then_told (h : ToldButLatches s t rs ns) (h' : Told t u rs' (toOps ns')) :
    ToldButLatches s u (rs ++ rs') (ns ++ ns') := by
  intro p
  have hlast : (u.port p).withLatches (s.port p).presence (s.port p).faults =
      (((t.port p).withLatches (s.port p).presence (s.port p).faults).clearAll rs').told (toOps ns' p) := by
    rw [h' p, clearAll_withLatches, told_withLatches]
  refine hlast.trans ?_
  rw [show (t.port p).withLatches (s.port p).presence (s.port p).faults = _ from h p, told_clearAll, clearAll_append,
    ← toOps_append, told_append]

/-- A step that writes latches alone. -/
theorem toldButLatches_then_latches (h : ToldButLatches s t rs ns)
    (h' : ∀ p, ∃ presence faults, u.port p = (t.port p).withLatches presence faults) : ToldButLatches s u rs ns := by
  intro p
  obtain ⟨presence, faults, hu⟩ := h' p
  rw [hu]
  exact h p

end

theorem clearPresence_latches (s : State) (b : Nat) (p : Port) :
    ∃ presence faults, (s.clearPresence b).port p = (s.port p).withLatches presence faults :=
  ⟨_, _, port_clearPresence s b p⟩

theorem setFault_latches (s : State) (b : Nat) (p : Port) :
    ∃ presence faults, (s.setFault b).port p = (s.port p).withLatches presence faults := ⟨_, _, port_setFault s b p⟩

theorem presenceOf_clearPresence (s : State) (b y : Nat) (p : Port) :
    ((s.clearPresence b).port p).presenceOf y = if y = b then false else (s.port p).presenceOf y := by
  rw [port_clearPresence]
  exact tabGet_tabSet false _ b y false

theorem faultOf_setFault (s : State) (b y : Nat) (p : Port) :
    ((s.setFault b).port p).faultOf y = if y = b then true else (s.port p).faultOf y := by
  rw [port_setFault]
  exact tabGet_tabSet false _ b y true

-- The loss of a booth (R97)

/-- What the link record, the ports' latches and the ports are told of the loss of booth `b`. -/
structure LinkLost (s t : State) (b : Nat) (k : Link) (rs : List RecordName) (ns : List Notice) : Prop where
  loses : LosesBooth s t b
  link  : (t.booth b).link = k
  told  : ToldButLatches s t rs ns
  fault : ∀ p, (t.port p).faults = (s.port p).faults

section
variable {t u : State} {b : Nat} {k : Link} {rs : List RecordName} {ns : List Notice}

/-- Once lost, the booth is lost still when its link record, the ports and the feed link alone are written. -/
theorem losesBooth_kept (h : LosesBooth s t b) (hb : ∃ k, u.booth b = { t.booth b with link := k })
    (hx : ∀ x, x ≠ b → u.booth x = t.booth x) (hp : ∀ p, (u.port p).presence = (t.port p).presence)
    (hu : t.OnlyBooths u) : LosesBooth s u b := by
  obtain ⟨hseats, hgranted, hselected, hhandover, hflash, hconfig, hinput, hstack, htakers, hothers, hreleased, hkept,
    hgone, hpresence, hframe⟩ := h
  obtain ⟨k, hk⟩ := hb
  have hlanguages : u.languages = t.languages := by rw [hu]
  have hchannels : u.channels = t.channels := by rw [hu]
  have hlanguage : ∀ l, u.language l = t.language l := fun l => by rw [State.language, hlanguages]; rfl
  have hchannel : ∀ c, u.channel c = t.channel c := fun c => by rw [State.channel, hchannels]; rfl
  have hlatch : ∀ p y, (u.port p).presenceOf y = (t.port p).presenceOf y := fun p y => by
    rw [PortState.presenceOf, hp p]
    rfl
  refine ⟨fun n h1 h3 => ?_, ?_, ?_, ?_, ?_, ?_, ?_, ?_, ?_, fun x hne => (hx x hne).trans (hothers x hne),
    fun hseat => ?_, fun hseat => ?_, fun p => (hlatch p b).trans (hgone p),
    fun p y hy => (hlatch p y).trans (hpresence p y hy), ?_⟩
  · rw [hk]; exact hseats n h1 h3
  · rw [hk]; exact hgranted
  · rw [hk]; exact hselected
  · rw [hk]; exact hhandover
  · rw [hk]; exact hflash
  · rw [hk]; exact hconfig
  · rw [hk]; exact hinput
  · rw [hk]; exact hstack
  · rw [hk]; exact htakers
  · obtain ⟨hown, hch⟩ := hreleased hseat
    exact ⟨fun l => (hlanguage l).trans (hown l), fun c => (hchannel c).trans (hch c)⟩
  · obtain ⟨hl, hc⟩ := hkept hseat
    exact ⟨hlanguages.trans hl, hchannels.trans hc⟩
  · exact State.OnlyHall.trans (s := s.slotOver) hframe hu.hall

theorem LinkLost.feedWork (h : LinkLost s t b k rs ns) : LinkLost s t.feedWork b k rs ns where
  loses := losesBooth_kept h.loses ⟨_, feedWork_booth t b⟩ (fun x _ => feedWork_booth t x)
    (fun p => by rw [feedWork_port]) (onlyBooths_feedWork t)
  link := by rw [feedWork_booth]; exact h.link
  told p := by rw [feedWork_port]; exact h.told p
  fault p := by rw [feedWork_port, h.fault p]

end

/-- The stages of a loss put together: the link record and BOOTH_LOST, the booth controller, the relay map, the latches. -/
theorem linkLost_of_stages {told silent alone : State} {b : Nat} {k : Link} {cause : Cause}
    (hB : told.booth b = { s.booth b with link := k }) (hX : ∀ x, x ≠ b → told.booth x = s.booth x)
    (hl : told.languages = s.languages) (hch : told.channels = s.channels)
    (htold : Told s told [.booth b] (toOps [.boothLost b cause (s.booth b).onAirSeat]))
    (hframe : s.slotOver.OnlyHall told) (hc : ControllerLost told silent b)
    (hr : (silent.booth b).takers.Nodup → b ∉ (silent.booth b).takers → RelayLost silent alone b)
    (hn : (s.booth b).takers.Nodup) (hb : b ∉ (s.booth b).takers) :
    LinkLost s (alone.clearPresence b) b k (lossRecords s b) (lossNotices s b cause) := by
  have hmap : ∀ x, (told.booth x).takers = (s.booth x).takers ∧ (told.booth x).input = (s.booth x).input := fun x => by
    by_cases hx : x = b
    · subst hx
      rw [hB]
      exact ⟨rfl, rfl⟩
    · rw [hX x hx]
      exact ⟨rfl, rfl⟩
  have hseat : (told.booth b).onAirSeat = (s.booth b).onAirSeat := by rw [hB]; rfl
  have hlanguage : (told.booth b).language = (s.booth b).language := by rw [hB]; rfl
  have hls : ∀ l, told.language l = s.language l := fun l => by rw [State.language, hl]; rfl
  have hcs : ∀ c, told.channel c = s.channel c := fun c => by rw [State.channel, hch]; rfl
  have hsilent : ∀ x, (silent.booth x).takers = (s.booth x).takers ∧ (silent.booth x).input = (s.booth x).input := by
    intro x
    by_cases hx : x = b
    · subst hx
      rw [hc.booth]
      exact hmap x
    · rw [hc.others x hx]
      exact hmap x
  have hr := hr (by rwa [(hsilent b).1]) (by rwa [(hsilent b).1])
  have haloneL : alone.languages = silent.languages := by rw [hr.frame]
  have haloneC : alone.channels = silent.channels := by rw [hr.frame]
  have hleft : silent.leftRecords b = s.leftRecords b := by
    unfold State.leftRecords
    rw [(hsilent b).2]
    cases (s.booth b).input with
    | floor => rfl
    | relay a =>
      dsimp only
      rw [takerRecords_congr (hsilent a).1, (hsilent a).1]
  have hlost : Told s alone (lossRecords s b) (toOps (lossNotices s b cause)) := by
    have h := htold.then_beside (List.mem_singleton.2 rfl) (hc.told.trans hr.told)
    rw [hseat, hlanguage, releaseRecords_congr hls hcs, releaseNotices_congr hls hcs, (hsilent b).1,
      droppedRecords_congr fun x _ => (hsilent x).2, hleft] at h
    simp only [List.cons_append, List.nil_append, ← List.append_assoc] at h
    exact h
  refine ⟨⟨fun n h1 h3 => ?_, ?_, ?_, ?_, ?_, ?_, ?_, ?_, ?_, fun x hx => ?_, fun h => ⟨fun l => ?_, fun c => ?_⟩,
    fun h => ⟨?_, ?_⟩, fun p => ?_, fun p y hy => ?_, ?_⟩, ?_, ?_, fun p => ?_⟩
  · show (alone.booth b).seat n = _
    rw [hr.booth]
    refine (hc.seats n h1 h3).trans ?_
    rw [hB]
    rfl
  · show (alone.booth b).granted = _
    rw [hr.booth, hc.booth]
  · show (alone.booth b).selected = _
    rw [hr.booth, hc.booth]
  · show (alone.booth b).handover = _
    rw [hr.booth, hc.booth]
  · show (alone.booth b).flash = _
    rw [hr.booth, hc.booth]
  · show (alone.booth b).config = _
    rw [hr.booth, hc.booth, hB]
  · show (alone.booth b).input = _
    rw [hr.booth]
  · show (alone.booth b).stack = _
    rw [hr.booth]
  · show (alone.booth b).takers = _
    rw [hr.booth]
  · show alone.booth x = _
    rw [hr.others x hx, (hsilent b).1, (hsilent b).2, hc.others x hx, hX x hx]
  · have hreleased := (hc.released (by rwa [hseat])).1 l
    rw [hlanguage, hls] at hreleased
    refine Eq.trans ?_ hreleased
    show tabGet _ alone.languages l = _
    rw [haloneL]
    rfl
  · have hreleased := (hc.released (by rwa [hseat])).2 c
    rw [hlanguage, releasedChannel_congr hls hcs] at hreleased
    refine Eq.trans ?_ hreleased
    show tabGet _ alone.channels c = _
    rw [haloneC]
    rfl
  · exact haloneL.trans ((hc.kept (by rwa [hseat])).1.trans hl)
  · exact haloneC.trans ((hc.kept (by rwa [hseat])).2.trans hch)
  · rw [presenceOf_clearPresence, if_pos rfl]
  · rw [presenceOf_clearPresence, if_neg hy, PortState.presenceOf, (latches_told hlost p).1]
    rfl
  · exact ((hframe.trans hc.hall).trans hr.frame.hall).trans (u := alone.clearPresence b) rfl
  · show (alone.booth b).link = _
    rw [hr.booth, hc.booth, hB]
  · exact toldButLatches_then_latches (told_butLatches hlost) fun p => clearPresence_latches alone b p
  · rw [port_clearPresence, ← (latches_told hlost p).2]

theorem linkLost {b : Nat} (cause : Cause) (hp : (s.booth b).link.state = .present) (hn : (s.booth b).takers.Nodup)
    (hb : b ∉ (s.booth b).takers) :
    LinkLost s (s.slotOver.loseBooth b cause) b
      { (s.booth b).link with state := .absent, grant := none, missed := 0, lastSequence := 0 } (lossRecords s b)
      (lossNotices s b cause) := by
  let k : Link := { (s.booth b).link with state := .absent, grant := none, missed := 0, lastSequence := 0 }
  have hunlinked := (Told.of_ports (s := s) (t := s.slotOver) fun p => by cases p <;> rfl).trans_silent
    (told_setLink s.slotOver b k)
  rw [if_neg (by rw [slotOver_booth, hp]; exact LinkState.noConfusion)] at hunlinked
  have hframe : s.slotOver.OnlyBooths ((s.slotOver.setLink b k).notify .ops (.boothLost b cause (s.booth b).onAirSeat)) :=
    (onlyBooths_setLink s.slotOver b k).trans (onlyBooths_notify _ .ops _)
  refine linkLost_of_stages (told := (s.slotOver.setLink b k).notify .ops (.boothLost b cause (s.booth b).onAirSeat))
    (by simp [booth_setLink, k]) (fun x hx => by simp [booth_setLink, hx]) (by rw [hframe]; rfl) (by rw [hframe]; rfl)
    (hunlinked.silent.notifyOps _) hframe.hall (controllerLost _ b) (fun hn hb => relayLost _ hn hb) hn hb

-- SLOT_UNANSWERED (R91, R95)

theorem exec_slotUnanswered {b : Nat} (h : s.Awaits b) (hf : s.boothFitted b = true) :
    exec (.slotUnanswered b) s = .next (s.slotOver.unanswered b).feedWork := by
  rw [exec_inSlot (i := .slotUnanswered b) rfl h, slotOver_boothFitted, if_pos hf]

theorem told_slotOver (s : State) : Told s s.slotOver [] toNone := Told.of_ports fun p => by cases p <;> rfl

/-- Settles O26: by the link state a failed negotiation, nothing, a missed poll, or the loss of the booth (`linkLost`). -/
theorem missedPollsLoseBooth : Obligations.MissedPollsLoseBooth := by
  intro s b hawaits hfitted v
  have hexec := exec_slotUnanswered hawaits hfitted
  refine ⟨fun hstate => ?_, fun hstate => ?_, fun hstate hmissed => ?_, fun hstate hmissed hn hb => ?_⟩
  · have heffect : s.slotOver.unanswered b = s.slotOver := by
      simp only [State.unanswered, slotOver_booth, show (s.booth b).link.state = .absent from hstate]
    rw [heffect] at hexec
    exact ⟨_, hexec, feedWork_frame _⟩
  · have heffect : s.slotOver.unanswered b = s.slotOver.noAcknowledgement b := by
      simp only [State.unanswered, slotOver_booth, show (s.booth b).link.state = .negotiating from hstate]
    rw [heffect] at hexec
    exact unacknowledged hexec hstate
  · have heffect : s.slotOver.unanswered b =
        s.slotOver.setLink b { (s.booth b).link with missed := (s.booth b).link.missed + 1 } := by
      simp only [State.unanswered, slotOver_booth, show (s.booth b).link.state = .present from hstate, State.missedPoll]
      exact if_neg (by have : (s.booth b).link.missed < 2 := hmissed; omega)
    rw [heffect] at hexec
    obtain ⟨t, ht, hbooth, hothers, htold, hframe⟩ := writes_link (u := s.slotOver) hexec (fun _ => rfl)
      fun p => by cases p <;> rfl
    rw [if_pos rfl] at htold
    exact ⟨t, ht, hbooth, hothers, htold, hframe⟩
  · have heffect : s.slotOver.unanswered b = s.slotOver.loseBooth b .noAnswer := by
      simp only [State.unanswered, slotOver_booth, show (s.booth b).link.state = .present from hstate, State.missedPoll]
      exact if_pos (by have : 2 ≤ (s.booth b).link.missed := hmissed; omega)
    rw [heffect] at hexec
    have hlost := (linkLost .noAnswer hstate hn hb).feedWork
    exact ⟨_, hexec, hlost.loses, hlost.link, fun p y => by rw [PortState.faultOf, hlost.fault p]; rfl, hlost.told⟩

-- ADVERTISE (R89, R90, R98, R101)

theorem exec_advertise {b : Nat} {a : Abilities} (h : s.Awaits b) (hf : s.boothFitted b = true) :
    exec (.advertise b a) s =
      .next (match (s.booth b).link.state with
        | .absent => s.slotOver.judge b a
        | .negotiating => s.slotOver.noAcknowledgement b
        | .present => (s.slotOver.loseBooth b .restarted).judge b a
        | .faultWait => s.slotOver).feedWork := by
  rw [exec_inSlot (i := .advertise b a) rfl h, State.takeAdvertise, slotOver_boothFitted, hf]
  rfl

/-- The link record of a booth whose advertisement is negotiated. -/
def negotiated (s : State) (k : Link) (a : Abilities) : Link :=
  { k with state := .negotiating, grant := some { a with seats := min a.seats s.profile.seatCap }, grantPolls := 0 }

section
variable {b : Nat} {a : Abilities}

theorem judge_possible (h1 : 1 ≤ a.seats) (h3 : a.seats ≤ 3) :
    s.judge b a = s.setLink b (negotiated s (s.booth b).link a) := by
  unfold State.judge
  exact if_neg (by simp; omega)

theorem judge_impossible (h : a.seats = 0 ∨ 3 < a.seats) :
    s.judge b a =
      ((s.setLink b { (s.booth b).link with state := .faultWait, waitRemaining := Config.faultWaitCycles }).notify .ops
        (.joinFault b a.seats)).setFault b := by
  unfold State.judge
  exact if_pos (by simpa using h)

theorem onlyBooths_setFault (s : State) (b : Nat) : s.OnlyBooths (s.setFault b) := rfl

theorem setFault_booth (s : State) (b x : Nat) : (s.setFault b).booth x = s.booth x := rfl

end

theorem toldButLatches_same_records {t : State} {rs rs' : List RecordName} {ns : List Notice}
    (h : ToldButLatches s t rs ns) (hr : ∀ r, r ∈ rs ↔ r ∈ rs') : ToldButLatches s t rs' ns := by
  intro p
  rw [h p, clearAll_eq, clearAll_eq]
  simp only [hr]

/-- The records of a loss hold the booth's own. -/
theorem lossRecords_with (s : State) (b : Nat) (r : RecordName) :
    r ∈ lossRecords s b ++ [.booth b] ↔ r ∈ lossRecords s b := by
  rw [List.mem_append, List.mem_singleton]
  exact ⟨fun h => h.elim id fun h => h ▸ List.mem_cons_self .., .inl⟩

section
variable {t : State} {b : Nat} {k : Link} {ns : List Notice} (h : LinkLost s t b k (lossRecords s b) ns)
include h

/-- The link record of a lost booth is written. -/
theorem LinkLost.setLink (k' : Link) : LinkLost s (t.setLink b k') b k' (lossRecords s b) ns where
  loses := losesBooth_kept h.loses ⟨k', (booth_setLink t b k' b).trans (if_pos rfl)⟩
    (fun x hx => (booth_setLink t b k' x).trans (if_neg hx)) (fun p => (latches_told (told_setLink t b k') p).1)
    (onlyBooths_setLink t b k')
  link := by rw [booth_setLink, if_pos rfl]
  told := by
    have htold := toldButLatches_then_told h.told (told_setLink t b k').silent
    rw [List.append_nil] at htold
    refine toldButLatches_same_records htold fun r => ?_
    split
    · rw [List.append_nil]
    · exact lossRecords_with s b r
  fault p := (latches_told (told_setLink t b k') p).2.trans (h.fault p)

/-- A notice after the loss of a booth. -/
theorem LinkLost.notify (n : Notice) : LinkLost s (t.notify .ops n) b k (lossRecords s b) (ns ++ [n]) where
  loses := losesBooth_kept h.loses ⟨_, notify_booth t .ops n b⟩ (fun x _ => notify_booth t .ops n x)
    (fun p => (latches_told (told_notifyOps t n) p).1) (onlyBooths_notify t .ops n)
  link := by rw [notify_booth]; exact h.link
  told := by simpa using toldButLatches_then_told h.told (told_notifyOps t n)
  fault p := (latches_told (told_notifyOps t n) p).2.trans (h.fault p)

end

/-- Every port's fault latch of booth `b` is set, and no other (R101). -/
theorem faulted_setFault {u : State} {b : Nat} (hu : ∀ p, (u.port p).faults = (s.port p).faults) :
    (∀ p, ((u.setFault b).feedWork.port p).faultOf b = true) ∧
      ∀ p y, y ≠ b → ((u.setFault b).feedWork.port p).faultOf y = (s.port p).faultOf y := by
  refine ⟨fun p => ?_, fun p y hy => ?_⟩
  · rw [feedWork_port, faultOf_setFault, if_pos rfl]
  · rw [feedWork_port, faultOf_setFault, if_neg hy, PortState.faultOf, hu p]
    rfl

/-- Settles O23: an ABSENT booth is judged; a PRESENT one is lost (`linkLost`) and then judged. -/
theorem advertiseJudged : Obligations.AdvertiseJudged := by
  intro s b a hawaits hfitted v k granted faulted
  have hexec := exec_advertise (a := a) hawaits hfitted
  refine ⟨fun hstate h1 h3 => ?_, fun hstate hseats => ?_, fun hstate hn hb h1 h3 => ?_,
    fun hstate hn hb hseats => ?_, fun hstate => ?_⟩
  · rw [show (s.booth b).link.state = .absent from hstate] at hexec
    dsimp only at hexec
    rw [judge_possible h1 h3] at hexec
    obtain ⟨t, ht, hbooth, hothers, htold, hframe⟩ := writes_link (u := s.slotOver) hexec (fun _ => rfl)
      fun p => by cases p <;> rfl
    rw [if_neg (by rw [show (s.booth b).link.state = .absent from hstate]; exact LinkState.noConfusion)] at htold
    exact ⟨t, ht, hbooth, hothers, htold, hframe⟩
  · rw [show (s.booth b).link.state = .absent from hstate] at hexec
    dsimp only at hexec
    rw [judge_impossible hseats] at hexec
    let waiting : Link := { (s.booth b).link with state := .faultWait, waitRemaining := Config.faultWaitCycles }
    have hwaiting := told_setLink s.slotOver b waiting
    rw [if_neg (by rw [slotOver_booth, show (s.booth b).link.state = .absent from hstate]; exact LinkState.noConfusion)]
      at hwaiting
    have htold := ((told_slotOver s).trans_silent hwaiting).silent.notifyOps (.joinFault b a.seats)
    refine ⟨_, hexec, ?_, fun x hx => ?_, faulted_setFault fun p => (latches_told htold p).2, fun p => ?_,
      ((onlyBooths_setLink s.slotOver b waiting).trans (onlyBooths_notify _ .ops _)).trans
        ((onlyBooths_setFault _ b).trans (onlyBooths_feedWork _))⟩
    · rw [feedWork_booth, setFault_booth, notify_booth, booth_setLink, if_pos rfl]
      rfl
    · rw [feedWork_booth, setFault_booth, notify_booth, booth_setLink, if_neg hx, slotOver_booth]
    · rw [feedWork_port, port_setFault, ← (latches_told htold p).2]
      exact htold p
  · rw [show (s.booth b).link.state = .present from hstate] at hexec
    dsimp only at hexec
    have hlost := linkLost .restarted hstate hn hb
    rw [judge_possible h1 h3, hlost.link] at hexec
    generalize s.slotOver.loseBooth b .restarted = t at hexec hlost
    have hprofile : t.profile = s.profile := by
      obtain ⟨-, -, -, -, -, -, -, -, -, -, -, -, -, -, hframe⟩ := hlost.loses
      rw [hframe]
    rw [negotiated, hprofile] at hexec
    have hjudged := (hlost.setLink { k with
      state := .negotiating, grant := some granted, grantPolls := 0, missed := 0, lastSequence := 0 }).feedWork
    exact ⟨_, hexec, hjudged.loses, hjudged.link, fun p y => by rw [PortState.faultOf, hjudged.fault p]; rfl,
      hjudged.told⟩
  · rw [show (s.booth b).link.state = .present from hstate] at hexec
    dsimp only at hexec
    have hlost := linkLost .restarted hstate hn hb
    rw [judge_impossible hseats, hlost.link] at hexec
    generalize s.slotOver.loseBooth b .restarted = t at hexec hlost
    have hjudged := (hlost.setLink { k with
      state := .faultWait, grant := none, waitRemaining := Config.faultWaitCycles, missed := 0,
      lastSequence := 0 }).notify (.joinFault b a.seats)
    have hloses := losesBooth_kept hjudged.loses ⟨_, setFault_booth _ b b⟩ (fun x _ => setFault_booth _ b x)
      (fun p => by rw [port_setFault]) (onlyBooths_setFault _ b)
    refine ⟨_, hexec, losesBooth_kept hloses ⟨_, feedWork_booth _ b⟩ (fun x _ => feedWork_booth _ x)
      (fun p => by rw [feedWork_port]) (onlyBooths_feedWork _), ?_, faulted_setFault hjudged.fault, fun p => ?_⟩
    · rw [feedWork_booth, setFault_booth]
      exact hjudged.link
    · rw [feedWork_port]
      exact toldButLatches_then_latches hjudged.told (setFault_latches _ b) p
  · rw [hexec, exec_slotUnanswered hawaits hfitted]
    simp only [State.unanswered, slotOver_booth, show (s.booth b).link.state = .negotiating from hstate]

end Sys2Proof.Machine
end

section
/-!
PROOFS. The key events of an answer have the effect of their rows whether or not the slot is over (R87, R96), and
STATUS_REPLY (R95), settled.
-/
namespace Sys2Proof.Machine

variable (s : State)

-- The end of the slot goes along with the writes of the hall.

@[simp] theorem slotOver_language (l : Nat) : s.slotOver.language l = s.language l := rfl
@[simp] theorem slotOver_channel (c : Nat) : s.slotOver.channel c = s.channel c := rfl
@[simp] theorem slotOver_profile : s.slotOver.profile = s.profile := rfl
@[simp] theorem slotOver_run : s.slotOver.run = s.run := rfl
@[simp] theorem slotOver_feed : s.slotOver.feed = s.feed := rfl
@[simp] theorem slotOver_feedTable : s.slotOver.feedTable = s.feedTable := rfl

/-- A choice of two states, whose condition does not look at the line, goes along with the end of the slot. -/
theorem slotOver_ite {c : Prop} {i i' : Decidable c} {x y x' y' : State} (hx : x = x'.slotOver) (hy : y = y'.slotOver) :
    @ite State c i x y = (@ite State c i' x' y').slotOver := by
  cases Subsingleton.elim i i'
  split
  · exact hx
  · exact hy

@[simp] theorem slotOver_notify (p : Port) (n : Notice) : s.slotOver.notify p n = (s.notify p n).slotOver := by
  cases p <;> rfl

@[simp] theorem slotOver_setLanguage (l : Nat) (v : Language) :
    s.slotOver.setLanguage l v = (s.setLanguage l v).slotOver := slotOver_ite rfl rfl

@[simp] theorem slotOver_setChannel (c : Nat) (v : Channel) :
    s.slotOver.setChannel c v = (s.setChannel c v).slotOver := slotOver_ite rfl rfl

@[simp] theorem slotOver_setBooth (b : Nat) (v : Booth) : s.slotOver.setBooth b v = (s.setBooth b v).slotOver :=
  slotOver_ite rfl rfl

@[simp] theorem slotOver_flashLamp (b : Nat) (lamp : FlashLamp) :
    s.slotOver.flashLamp b lamp = (s.flashLamp b lamp).slotOver := by
  simp [State.flashLamp]

@[simp] theorem slotOver_feedWork : s.slotOver.feedWork = s.feedWork.slotOver :=
  slotOver_ite (slotOver_ite rfl rfl) rfl

@[simp] theorem slotOver_followOwner (l : Nat) : s.slotOver.followOwner l = (s.followOwner l).slotOver := by
  unfold State.followOwner
  simp only [slotOver_language]
  cases (s.language l).channel with
  | none => rfl
  | some c => exact slotOver_ite rfl (by simp)

@[simp] theorem slotOver_setOwner (l : Nat) (o : Option Nat) :
    s.slotOver.setOwner l o = (s.setOwner l o).slotOver :=
  slotOver_ite rfl (by simp)

@[simp] theorem slotOver_acquire (b l : Nat) : s.slotOver.acquire b l = (s.acquire b l).map State.slotOver := by
  unfold State.acquire
  simp only [slotOver_language]
  cases (s.language l).owner with
  | none => simp
  | some o =>
    dsimp only
    split <;> rfl

@[simp] theorem slotOver_release (b : Nat) (x : Option Nat) : s.slotOver.release b x = (s.release b x).slotOver := by
  cases x with
  | none => rfl
  | some l => exact slotOver_ite (slotOver_setOwner s l none) rfl

@[simp] theorem slotOver_switchTo (b y : Nat) (x : Option Nat) :
    s.slotOver.switchTo b x y = (s.switchTo b x y).map State.slotOver := by
  unfold State.switchTo
  simp only [slotOver_language]
  split
  · rfl
  · cases (s.language y).owner with
    | none => simp
    | some o =>
      dsimp only
      split
      · simp
      · rfl

-- The keys of the seats (R33, R36)

@[simp] theorem slotOver_goOnAir (b n l : Nat) : s.slotOver.goOnAir b n l = (s.goOnAir b n l).map State.slotOver := by
  unfold State.goOnAir
  rw [slotOver_acquire]
  cases s.acquire b l with
  | none => rfl
  | some t => simp

@[simp] theorem slotOver_goOffAir (b n : Nat) (x : Option Nat) :
    s.slotOver.goOffAir b n x = (s.goOffAir b n x).slotOver := by
  simp [State.goOffAir]

@[simp] theorem slotOver_transfer (b o n : Nat) : s.slotOver.transfer b o n = (s.transfer b o n).slotOver := by
  simp [State.transfer]

@[simp] theorem slotOver_micGoOn (b n : Nat) : s.slotOver.micGoOn b n = (s.micGoOn b n).slotOver := by
  unfold State.micGoOn
  simp only [slotOver_booth, slotOver_goOnAir, slotOver_flashLamp]
  cases (s.booth b).language with
  | none => rfl
  | some l =>
    dsimp only
    cases s.goOnAir b n l <;> rfl

@[simp] theorem slotOver_micOff (b n t : Nat) : s.slotOver.micOff b n t = (s.micOff b n t).slotOver := by
  unfold State.micOff
  simp only [slotOver_booth, slotOver_transfer, slotOver_flashLamp, State.withdraw, State.requestBy, slotOver_setBooth,
    slotOver_profile]
  split
  · split <;> rfl
  · split <;> rfl

@[simp] theorem slotOver_micOn (b n : Nat) : s.slotOver.micOn b n = (s.micOn b n).slotOver := by
  unfold State.micOn
  simp only [slotOver_booth, slotOver_transfer, slotOver_goOffAir]
  split <;> rfl

theorem slotOver_micKey (b n : Nat) : s.slotOver.micKey b n = (s.micKey b n).slotOver := by
  unfold State.micKey
  simp only [slotOver_booth, slotOver_micGoOn, slotOver_micOff, slotOver_micOn]
  split
  · split
    · rfl
    · split <;> rfl
    · rfl
    · rfl
  · rfl

theorem slotOver_muteKey (b n : Nat) (before after : SeatState) :
    s.slotOver.muteKey b n before after = (s.muteKey b n before after).slotOver :=
  slotOver_ite (slotOver_setBooth s b _) rfl

-- The output keys (R37)

@[simp] theorem slotOver_dropTaker (b : Nat) (cause : Cause) (c : Nat) :
    s.slotOver.dropTaker b cause c = (s.dropTaker b cause c).slotOver := by
  simp [State.dropTaker]

@[simp] theorem slotOver_followOrDropOne (b : Nat) (y : Option Nat) (c : Nat) :
    s.slotOver.followOrDropOne b y c = (s.followOrDropOne b y c).slotOver := by
  unfold State.followOrDropOne
  simp only [slotOver_booth, slotOver_dropTaker, notifyOps_eq, slotOver_notify]
  split
  · rfl
  · split <;> rfl

/-- What goes along with one visit goes along with all of them. -/
theorem slotOver_foldl {α : Type} {f : State → α → State} (hf : ∀ (t : State) x, f t.slotOver x = (f t x).slotOver)
    (l : List α) (s : State) : l.foldl f s.slotOver = (l.foldl f s).slotOver := by
  induction l generalizing s with
  | nil => rfl
  | cons x rest ih => rw [List.foldl_cons, hf, ih, List.foldl_cons]

@[simp] theorem slotOver_followOrDrop (b : Nat) (y : Option Nat) :
    s.slotOver.followOrDrop b y = (s.followOrDrop b y).slotOver :=
  slotOver_foldl (fun t c => slotOver_followOrDropOne t b y c) _ s

@[simp] theorem slotOver_changeOutput (b : Nat) (o : Output) (former : Option Nat) :
    s.slotOver.changeOutput b o former = (s.changeOutput b o former).slotOver := by
  unfold State.changeOutput
  simp only [slotOver_booth, slotOver_setBooth, slotOver_followOrDrop]
  split <;> rfl

@[simp] theorem slotOver_takeOutput (b : Nat) (o : Output) :
    s.slotOver.takeOutput b o = (s.takeOutput b o).slotOver := by
  unfold State.takeOutput
  simp only [slotOver_booth, slotOver_switchTo, slotOver_flashLamp, slotOver_changeOutput]
  split
  · cases s.switchTo b (s.booth b).language _ with
    | none => rfl
    | some t => exact slotOver_changeOutput t b o _
  · rfl

theorem slotOver_outputAKey (b : Nat) : s.slotOver.outputAKey b = (s.outputAKey b).slotOver :=
  slotOver_ite rfl (slotOver_ite (slotOver_flashLamp s b _) (slotOver_takeOutput s b .a))

theorem slotOver_outputBKey (b : Nat) : s.slotOver.outputBKey b = (s.outputBKey b).slotOver :=
  slotOver_ite rfl (slotOver_ite (slotOver_flashLamp s b _)
    (slotOver_ite (slotOver_flashLamp s b _) (slotOver_takeOutput s b .b)))

-- The input keys (R68)

@[simp] theorem slotOver_inTree (fuel x y : Nat) : s.slotOver.inTree fuel x y = s.inTree fuel x y := by
  induction fuel generalizing x with
  | zero => rfl
  | succ fuel ih => simp only [State.inTree, slotOver_booth, ih]

@[simp] theorem slotOver_depth (fuel b : Nat) : s.slotOver.depth fuel b = s.depth fuel b := by
  induction fuel generalizing b with
  | zero => rfl
  | succ fuel ih => simp only [State.depth, slotOver_booth, ih]

@[simp] theorem slotOver_height (fuel b : Nat) : s.slotOver.height fuel b = s.height fuel b := by
  induction fuel generalizing b with
  | zero => rfl
  | succ fuel ih => simp only [State.height, slotOver_booth, ih]

@[simp] theorem slotOver_relayCheck (x b : Nat) : s.slotOver.relayCheck x b = s.relayCheck x b := by
  unfold State.relayCheck
  simp only [slotOver_booth, slotOver_inTree, slotOver_depth, slotOver_height, slotOver_profile]
  rfl

@[simp] theorem slotOver_leaveSource (x : Nat) : s.slotOver.leaveSource x = (s.leaveSource x).slotOver := by
  unfold State.leaveSource
  simp only [slotOver_booth, slotOver_setBooth]
  split <;> rfl

@[simp] theorem slotOver_writeInput (x : Nat) (i : Input) (push : Bool) :
    s.slotOver.writeInput x i push = (s.writeInput x i push).slotOver := by
  simp [State.writeInput]

@[simp] theorem slotOver_joinSource (x b : Nat) (push : Bool) :
    s.slotOver.joinSource x b push = (s.joinSource x b push).slotOver := by
  simp [State.joinSource]

@[simp] theorem slotOver_selectByKey (x : Nat) (i : Input) (push : Bool) :
    s.slotOver.selectByKey x i push = (s.selectByKey x i push).slotOver := by
  by_cases h : (s.booth x).input = i
  · rw [selectByKey_held (s := s) push h, selectByKey_held (s := s.slotOver) push h]
  · unfold State.selectByKey State.select
    rw [if_neg h, if_neg (show ¬ (s.slotOver.booth x).input = i from h)]
    cases i with
    | floor => simp
    | relay b =>
      simp only [slotOver_relayCheck, slotOver_joinSource, slotOver_flashLamp]
      cases s.relayCheck x b <;> rfl

theorem slotOver_floorKey (x : Nat) : s.slotOver.floorKey x = (s.floorKey x).slotOver :=
  slotOver_ite (slotOver_selectByKey s x .floor true) rfl

theorem slotOver_relayKey (x b : Nat) : s.slotOver.relayKey x b = (s.relayKey x b).slotOver :=
  slotOver_ite (slotOver_selectByKey s x (.relay b) true) rfl

theorem slotOver_previousKey (x : Nat) : s.slotOver.previousKey x = (s.previousKey x).slotOver :=
  slotOver_ite (by simp) rfl

-- The key events of an answer (R96)

theorem slotOver_deliver (b : Nat) (e : KeyEvent) : s.slotOver.deliver b e = (s.deliver b e).slotOver := by
  cases e with
  | mic n => exact (congrArg State.feedWork (slotOver_micKey s b n)).trans (slotOver_feedWork _)
  | muteDown n => exact (congrArg State.feedWork (slotOver_muteKey s b n _ _)).trans (slotOver_feedWork _)
  | muteUp n => exact (congrArg State.feedWork (slotOver_muteKey s b n _ _)).trans (slotOver_feedWork _)
  | outputA => exact (congrArg State.feedWork (slotOver_outputAKey s b)).trans (slotOver_feedWork _)
  | outputB => exact (congrArg State.feedWork (slotOver_outputBKey s b)).trans (slotOver_feedWork _)
  | floorSel => exact (congrArg State.feedWork (slotOver_floorKey s b)).trans (slotOver_feedWork _)
  | relaySel x => exact (congrArg State.feedWork (slotOver_relayKey s b x)).trans (slotOver_feedWork _)
  | previous => exact (congrArg State.feedWork (slotOver_previousKey s b)).trans (slotOver_feedWork _)
  | other _ => rfl

variable {s}

-- What key events leave as it is

/-- From `s` to `t` neither the run state nor a link record is written. -/
structure KeepsLinks (s t : State) : Prop where
  run   : t.run = s.run
  links : ∀ x, (t.booth x).link = (s.booth x).link

theorem KeepsLinks.refl (s : State) : KeepsLinks s s := ⟨rfl, fun _ => rfl⟩

section
variable {t u : State} (h : KeepsLinks s t)
include h

theorem KeepsLinks.ite {c : Prop} {_ : Decidable c} (hu : KeepsLinks s u) : KeepsLinks s (if c then t else u) := by
  split
  · exact h
  · exact hu

theorem KeepsLinks.foldl {α : Type} {f : State → α → State} (l : List α)
    (hf : ∀ t x, KeepsLinks s t → KeepsLinks s (f t x)) : KeepsLinks s (l.foldl f t) := by
  induction l generalizing t with
  | nil => exact h
  | cons x rest ih => exact ih (hf t x h)

theorem KeepsLinks.bindings (hu : t.OnlyBindings u) : KeepsLinks s u := by
  refine ⟨?_, fun x => ?_⟩
  · rw [hu]
    exact h.run
  · rw [hu]
    exact h.links x

theorem KeepsLinks.setBooth {b : Nat} {v : Booth} (hv : v.link = (t.booth b).link) : KeepsLinks s (t.setBooth b v) := by
  refine ⟨(setBooth_run ..).trans h.run, fun x => ?_⟩
  rw [booth_setBooth]
  split
  next hx =>
    subst hx
    exact hv.trans (h.links x)
  next => exact h.links x

theorem KeepsLinks.notify {n : Notice} : KeepsLinks s (t.notify .ops n) := h.bindings (onlyBindings_notify t .ops n)

theorem KeepsLinks.flashLamp {b : Nat} {lamp : FlashLamp} : KeepsLinks s (t.flashLamp b lamp) := h.setBooth rfl

theorem KeepsLinks.feedWork : KeepsLinks s t.feedWork := h.bindings (by rw [State.OnlyBindings, feedWork_frame])

theorem KeepsLinks.acquire {b l : Nat} (hu : t.acquire b l = some u) : KeepsLinks s u := by
  unfold State.acquire at hu
  split at hu
  · cases hu
    exact h.bindings (onlyBindings_setOwner t l _)
  · split at hu
    · cases hu
      exact h
    · cases hu

theorem KeepsLinks.release {b : Nat} {x : Option Nat} : KeepsLinks s (t.release b x) :=
  h.bindings (onlyBindings_release t b x)

theorem KeepsLinks.switchTo {b y : Nat} {x : Option Nat} (hu : t.switchTo b x y = some u) : KeepsLinks s u := by
  unfold State.switchTo at hu
  split at hu
  · cases hu
    exact h
  · split at hu
    · cases hu
      exact h.release.bindings (onlyBindings_setOwner _ y _)
    · split at hu
      · cases hu
        exact h.release
      · cases hu

theorem KeepsLinks.goOffAir {b n : Nat} {x : Option Nat} : KeepsLinks s (t.goOffAir b n x) :=
  KeepsLinks.release (h.setBooth (by rfl))

theorem KeepsLinks.goOnAir {b n l : Nat} (hu : t.goOnAir b n l = some u) : KeepsLinks s u := by
  unfold State.goOnAir at hu
  split at hu
  · cases hu
  next w hw =>
    cases hu
    exact (h.acquire hw).setBooth rfl

theorem KeepsLinks.transfer {b o n : Nat} : KeepsLinks s (t.transfer b o n) := KeepsLinks.notify (h.setBooth (by rfl))

theorem KeepsLinks.micGoOn {b n : Nat} : KeepsLinks s (t.micGoOn b n) := by
  unfold State.micGoOn
  split
  · exact h.flashLamp
  · split
    · exact h.flashLamp
    next hw => exact h.goOnAir hw

theorem KeepsLinks.micOff {b n a : Nat} : KeepsLinks s (t.micOff b n a) := by
  unfold State.micOff
  split
  · exact KeepsLinks.ite (h.setBooth (by rfl)) h.flashLamp
  · split
    · exact h.transfer
    · exact h.setBooth rfl

theorem KeepsLinks.micOn {b n : Nat} : KeepsLinks s (t.micOn b n) := by
  unfold State.micOn
  split
  · exact h.transfer
  · exact h.goOffAir

theorem KeepsLinks.micKey {b n : Nat} : KeepsLinks s (t.micKey b n) := by
  unfold State.micKey
  split
  · split
    · exact h
    · split
      · exact h.micGoOn
      · exact h.micOff
    · exact h.micOn
    · exact h.micOn
  · exact h

theorem KeepsLinks.muteKey {b n : Nat} {before after : SeatState} : KeepsLinks s (t.muteKey b n before after) :=
  KeepsLinks.ite (h.setBooth (by rfl)) h

theorem KeepsLinks.dropTaker {b c : Nat} {cause : Cause} : KeepsLinks s (t.dropTaker b cause c) :=
  KeepsLinks.notify (KeepsLinks.setBooth (h.setBooth (by rfl)) (by rfl))

theorem KeepsLinks.followOrDropOne {b c : Nat} {y : Option Nat} : KeepsLinks s (t.followOrDropOne b y c) := by
  rcases followOrDropOne_cases t b c y with ⟨-, hone, -⟩ | ⟨-, hone⟩
  · exact hone ▸ h.dropTaker
  · exact hone ▸ h.notify

theorem KeepsLinks.changeOutput {b : Nat} {o : Output} {former : Option Nat} :
    KeepsLinks s (t.changeOutput b o former) :=
  have hset : KeepsLinks s (t.setBooth b { t.booth b with selected := o }) := h.setBooth rfl
  KeepsLinks.ite hset (hset.foldl _ fun _ _ h => h.followOrDropOne)

theorem KeepsLinks.takeOutput {b : Nat} {o : Output} : KeepsLinks s (t.takeOutput b o) := by
  unfold State.takeOutput
  dsimp only
  split
  · split
    · exact h.flashLamp
    next hw => exact (h.switchTo hw).changeOutput
  · exact h.changeOutput

theorem KeepsLinks.outputAKey {b : Nat} : KeepsLinks s (t.outputAKey b) := h.ite (h.flashLamp.ite h.takeOutput)

theorem KeepsLinks.outputBKey {b : Nat} : KeepsLinks s (t.outputBKey b) :=
  h.ite (h.flashLamp.ite (h.flashLamp.ite h.takeOutput))

theorem KeepsLinks.leaveSource {x : Nat} : KeepsLinks s (t.leaveSource x) := by
  unfold State.leaveSource
  split
  · exact h
  · exact h.setBooth rfl

theorem KeepsLinks.selectByKey {x : Nat} {i : Input} {push : Bool} : KeepsLinks s (t.selectByKey x i push) := by
  have hwritten : ∀ i, KeepsLinks s ((t.leaveSource x).writeInput x i push) := fun i => h.leaveSource.setBooth rfl
  unfold State.selectByKey State.select
  by_cases hheld : (t.booth x).input = i
  · rw [if_pos hheld]
    exact h
  · rw [if_neg hheld]
    cases i with
    | floor => exact hwritten .floor
    | relay b =>
      dsimp only
      cases t.relayCheck x b with
      | some cause => exact h.flashLamp
      | none => exact (hwritten (.relay b)).setBooth rfl

theorem KeepsLinks.floorKey {x : Nat} : KeepsLinks s (t.floorKey x) := h.selectByKey.ite h

theorem KeepsLinks.relayKey {x b : Nat} : KeepsLinks s (t.relayKey x b) := h.selectByKey.ite h

theorem KeepsLinks.previousKey {x : Nat} : KeepsLinks s (t.previousKey x) :=
  KeepsLinks.ite (KeepsLinks.selectByKey (h.setBooth (by rfl))) h

theorem KeepsLinks.deliver {b : Nat} {e : KeyEvent} : KeepsLinks s (t.deliver b e) := by
  cases e with
  | mic n => exact h.micKey.feedWork
  | muteDown n => exact h.muteKey.feedWork
  | muteUp n => exact h.muteKey.feedWork
  | outputA => exact h.outputAKey.feedWork
  | outputB => exact h.outputBKey.feedWork
  | floorSel => exact h.floorKey.feedWork
  | relaySel x => exact h.relayKey.feedWork
  | previous => exact h.previousKey.feedWork
  | other _ => exact h

end

/-- A key event delivered is its row carried out. -/
theorem exec_keyRow {b : Nat} {e : KeyEvent} {i : Instr} (hr : s.run = .hall) (hi : keyRow b e = some i) :
    exec i s = .next (s.deliver b e) := by
  cases e <;> cases hi <;> exact event_next rfl hr rfl

theorem deliver_of_no_row {b : Nat} {e : KeyEvent} (hi : keyRow b e = none) : s.deliver b e = s := by
  cases e <;> cases hi
  rfl

/-- The key events of an answer, delivered in their order, are their rows carried out one after another. -/
theorem runRows_keyRows (b : Nat) (events : List KeyEvent) {s : State} (hr : s.run = .hall) :
    runRows (events.filterMap (keyRow b)) s = some (events.foldl (fun s e => s.deliver b e) s) := by
  induction events generalizing s with
  | nil => rfl
  | cons e rest ih =>
    have hrun : (s.deliver b e).run = .hall := (KeepsLinks.refl s).deliver.run.trans hr
    cases hi : keyRow b e with
    | none =>
      rw [List.filterMap_cons_none hi, List.foldl_cons, deliver_of_no_row hi]
      exact ih hr
    | some i =>
      rw [List.filterMap_cons_some hi, List.foldl_cons, runRows, exec_keyRow hr hi]
      exact ih hrun

-- STATUS_REPLY (R95)

theorem exec_statusReply {b : Nat} {sequence : Fin 2} {events : List KeyEvent} (h : s.Awaits b)
    (hf : s.boothFitted b = true) (hp : (s.booth b).link.state = .present) :
    exec (.statusReply b sequence events) s = .next (s.slotOver.takeReply b sequence events).feedWork := by
  rw [exec_inSlot (i := .statusReply b sequence events) rfl h]
  simp only [State.statusReply, slotOver_boothFitted, hf, slotOver_booth, Booth.present, hp, decide_true, if_true,
    Bool.not_true, Bool.false_eq_true, if_false]

/-- The feed table is told from the languages, the channels, and the seats and inputs of the booths. -/
theorem feedTable_congr {t : State} (hl : ∀ l, t.language l = s.language l) (hc : ∀ c, t.channel c = s.channel c)
    (hn : ∀ b, (t.booth b).noLiveSeat = (s.booth b).noLiveSeat) (hi : ∀ b, (t.booth b).input = (s.booth b).input) :
    t.feedTable = s.feedTable := by
  have hbound : t.boundSource = s.boundSource := funext fun c => by simp only [State.boundSource, hl, hn]
  have hcode : t.channelCode = s.channelCode := funext fun c => by simp only [State.channelCode, hl]
  have hsource : t.feedSource = s.feedSource := funext fun c => by simp only [State.feedSource, hc, hbound]
  have hentry : t.feedEntry = s.feedEntry := funext fun c => by
    simp only [State.feedEntry, hc, hcode, hsource]
  simp only [State.feedTable, hentry, hi]

theorem feedWork_feed_congr {t : State} (hr : t.run = s.run) (hf : t.feed = s.feed) (ht : t.feedTable = s.feedTable) :
    t.feedWork.feed = s.feedWork.feed := by
  unfold State.feedWork State.feedStart
  rw [hr, hf, ht]
  split
  · dsimp only
    split <;> simp_all
  · exact hf

theorem setLink_feedTable (s : State) (b : Nat) (k : Link) : (s.setLink b k).feedTable = s.feedTable := by
  refine feedTable_congr (fun l => setBooth_language ..) (fun c => setBooth_channel ..) (fun x => ?_) (fun x => ?_)
  · rw [booth_setLink]
    split
    next hx => rw [hx]; rfl
    next => rfl
  · rw [booth_setLink]
    split
    next hx => rw [hx]
    next => rfl

/-- Settles O25: the events go along with the end of the slot, and their rows are carried out in their order. -/
theorem statusReplyTaken : Obligations.StatusReplyTaken := by
  intro s b sequence events g hawaits hfitted hp hgrant k
  have hexec := exec_statusReply (sequence := sequence) (events := events) hawaits hfitted hp
  have htaken : events.length ≤ g.events →
      ¬ (((s.slotOver.booth b).link.grant.map (·.events)).getD 0 < events.length) := fun hle => by
    rw [slotOver_booth, hgrant]
    simpa using hle
  refine ⟨fun hle hsame => ?_, fun hle hnew => ?_, fun hlt => ?_⟩
  · have heffect : s.slotOver.takeReply b sequence events = s.slotOver.setLink b { k with missed := 0 } := by
      unfold State.takeReply
      exact (if_neg (htaken hle)).trans (if_pos hsame)
    rw [heffect] at hexec
    obtain ⟨t, ht, hbooth, hothers, htold, hframe⟩ := writes_link (u := s.slotOver) hexec (fun _ => rfl)
      fun p => by cases p <;> rfl
    rw [if_pos rfl] at htold
    exact ⟨t, ht, hbooth, hothers, htold, hframe⟩
  · let u := events.foldl (fun s e => s.deliver b e) s
    have hdelivered : events.foldl (fun s e => s.deliver b e) s.slotOver = u.slotOver :=
      slotOver_foldl (fun t e => slotOver_deliver t b e) events s
    have hkept : KeepsLinks s u := (KeepsLinks.refl s).foldl _ fun _ _ h => h.deliver
    have heffect : s.slotOver.takeReply b sequence events =
        u.slotOver.setLink b { k with missed := 0, lastSequence := sequence } := by
      unfold State.takeReply
      refine ((if_neg (htaken hle)).trans (if_neg hnew)).trans ?_
      rw [hdelivered]
      dsimp only
      rw [slotOver_booth, hkept.links b]
    rw [heffect] at hexec
    have htold := (told_slotOver u).trans_silent
      (told_setLink u.slotOver b { k with missed := 0, lastSequence := sequence })
    rw [if_pos (by rw [slotOver_booth, hkept.links b])] at htold
    refine ⟨u, _, runRows_keyRows b events hawaits.1, hexec, ?_, fun x hx => ?_, fun p => htold.feedWork p, ?_,
      (onlyBooths_setLink u.slotOver b _).trans (onlyBooths_feedWork _)⟩
    · rw [feedWork_booth, booth_setLink, if_pos rfl, slotOver_booth]
    · rw [feedWork_booth, booth_setLink, if_neg hx, slotOver_booth]
    · exact feedWork_feed_congr (setBooth_run ..) (setBooth_feed ..) (setLink_feedTable u.slotOver b _)
  · have heffect : s.slotOver.takeReply b sequence events = s.slotOver.missedPoll b := by
      unfold State.takeReply
      exact if_pos (by rw [slotOver_booth, hgrant]; simpa using hlt)
    rw [hexec, heffect, exec_slotUnanswered hawaits hfitted]
    simp only [State.unanswered, slotOver_booth, hp]

end Sys2Proof.Machine
end

section
/-!
PROOFS. The feed link (R20 to R22) and the time base: second events and minute ticks (R198, R199), settled.
-/
namespace Sys2Proof.Machine

variable {s : State}

-- The feed link

theorem noLiveSeat_eq (v : Booth) : v.noLiveSeat = !([1, 2, 3].any fun n => (v.seat n).state = .live) := by
  unfold Booth.noLiveSeat
  rw [List.not_any_eq_all_not]
  simp

theorem boundSource_eq (s : State) (v : Channel) : s.boundSource v = boundFeed s v := by
  unfold State.boundSource boundFeed
  cases v.state with
  | free | mapped _ | redirect _ _ => rfl
  | live l =>
    dsimp only
    cases (s.language l).owner with
    | none => rfl
    | some b =>
      dsimp only
      rw [noLiveSeat_eq]
      cases [1, 2, 3].any fun n => ((s.booth b).seat n).state = .live <;> rfl

theorem channelCode_eq (s : State) (v : Channel) :
    s.channelCode v = (v.state.language.map fun l => (s.language l).code).getD [] := by
  unfold State.channelCode
  cases v.state.language <;> rfl

theorem feedTable_eq (s : State) : s.feedTable = feedContents s := by
  have hentry : ∀ c ∈ List.range' 1 24, s.feedEntry c =
      match (s.channel c).state with
      | .redirect target _ => ⟨boundFeed s (s.channel target),
          ((s.channel target).state.language.map fun l => (s.language l).code).getD [], target⟩
      | .free | .mapped _ | .live _ => ⟨boundFeed s (s.channel c),
          ((s.channel c).state.language.map fun l => (s.language l).code).getD [], 0⟩ := by
    intro c hc
    have hne : c ≠ 0 := by
      have := (List.mem_range'_1.1 hc).1
      omega
    unfold State.feedEntry State.feedSource
    rw [if_neg hne, if_neg hne]
    simp only [boundSource_eq, channelCode_eq]
    cases (s.channel c).state <;> rfl
  have hfirst : s.feedEntry 0 = ⟨.floor, [], 0⟩ := if_pos rfl
  unfold State.feedTable feedContents
  rw [show List.range 25 = 0 :: List.range' 1 24 from rfl, List.map_cons, hfirst]
  exact congrArg (fun entries => FeedTable.mk (⟨.floor, [], 0⟩ :: entries) _) (List.map_congr_left hentry)

/-- Settles O28: the flag is set, or the transmission ended, and the feed link then does its work. -/
theorem feedTransmits : Obligations.FeedTransmits := by
  refine ⟨feedTable_eq, fun s hr => ⟨⟨_, event_next rfl hr rfl, ?_, feedWork_frame s.feedRepeat⟩,
    ⟨_, event_next rfl hr rfl, ?_, feedWork_frame s.feedEnd⟩⟩⟩
  · unfold State.feedWork State.feedRepeat State.feedStart
    rw [if_pos hr]
    cases hsending : s.feed.sending with
    | false => simp [hsending]; rfl
    | true => simp [hsending]
  · unfold State.feedWork State.feedEnd State.feedStart
    rw [if_pos hr]
    have htable : ({ s with feed := { s.feed with sending := false } } : State).feedTable = s.feedTable := rfl
    rw [htable]
    by_cases hdue : s.feed.due = true ∨ s.feedTable ≠ s.feed.last
    · simp [hdue]
    · obtain ⟨hquiet, hlast⟩ := not_or.1 hdue
      simp [hquiet, not_not.1 hlast]

-- What the time base touches

/-- But for the channel map, the ports and the feed link, `t` is as `s`. -/
def State.OnlyChannels (s t : State) : Prop :=
  t = { s with
    channels := t.channels, opsPort := t.opsPort, deskAPort := t.deskAPort, deskBPort := t.deskBPort, feed := t.feed }

theorem State.OnlyChannels.refl (s : State) : s.OnlyChannels s := rfl

theorem State.OnlyChannels.trans {s t u : State} (h : s.OnlyChannels t) (h' : t.OnlyChannels u) :
    s.OnlyChannels u := by
  unfold State.OnlyChannels at *
  rw [h] at h'
  exact h'

theorem State.OnlyChannels.foldl {s t : State} {f : State → Nat → State} (h : s.OnlyChannels t) (l : List Nat)
    (hf : ∀ (u : State) x, u.OnlyChannels (f u x)) : s.OnlyChannels (l.foldl f t) := by
  induction l generalizing t with
  | nil => exact h
  | cons x rest ih => exact ih (h.trans (hf t x))

theorem State.OnlyChannels.booth {s t : State} (h : s.OnlyChannels t) (x : Nat) : t.booth x = s.booth x := by
  unfold State.OnlyChannels at h
  rw [h]
  rfl

theorem onlyChannels_setChannel (s : State) (i : Nat) (v : Channel) : s.OnlyChannels (s.setChannel i v) := by
  unfold State.OnlyChannels State.setChannel State.clearReservations
  dsimp only
  split <;> rfl

/-- But for the clock, the channels, the booths, the ports and the feed link, `t` is as `s`. -/
def State.OnlyTimed (s t : State) : Prop :=
  t = { s with
    second := t.second, minute := t.minute, channels := t.channels, booths := t.booths, opsPort := t.opsPort,
    deskAPort := t.deskAPort, deskBPort := t.deskBPort, feed := t.feed }

theorem State.OnlyTimed.refl (s : State) : s.OnlyTimed s := rfl

theorem State.OnlyTimed.trans {s t u : State} (h : s.OnlyTimed t) (h' : t.OnlyTimed u) : s.OnlyTimed u := by
  unfold State.OnlyTimed at *
  rw [h] at h'
  exact h'

theorem State.OnlyBooths.timed {s t : State} (h : s.OnlyBooths t) : s.OnlyTimed t := by
  unfold State.OnlyBooths at h
  unfold State.OnlyTimed
  rw [h]

theorem State.OnlyChannels.timed {s t : State} (h : s.OnlyChannels t) : s.OnlyTimed t := by
  unfold State.OnlyChannels at h
  unfold State.OnlyTimed
  rw [h]

-- A second event at a channel and at a booth (R18, R56)

/-- A channel after a second event. -/
def Channel.counted (v : Channel) : Channel :=
  match v.state with
  | .redirect target hold => { v with state := if hold ≤ 1 then .free else .redirect target (hold - 1) }
  | _ => v

theorem visits_countHold :
    Visits State.channel State.countHold (fun _ v => v.counted)
      (fun x v => match v.state with | .redirect _ hold => if hold ≤ 1 then [.channel x] else [] | _ => [])
      (fun x v =>
        match v.state with
        | .redirect target hold =>
          if hold ≤ 1 then [.channelChanged x { v with state := .free }, .redirectEnded x target .expired] else []
        | _ => []) where
  reads s i j := by
    unfold State.countHold Channel.counted
    cases hstate : (s.channel i).state with
    | redirect target hold =>
      dsimp only
      by_cases hlast : hold ≤ 1
      · rw [if_pos hlast, if_pos hlast, channel_endRedirect s .expired hstate]
      · rw [if_neg hlast, if_neg hlast, setChannelState_eq, channel_setChannel]
    | free | mapped _ | live _ =>
      dsimp only
      split
      next h => rw [h]
      next => rfl
  told s i := by
    unfold State.countHold
    cases hstate : (s.channel i).state with
    | redirect target hold =>
      dsimp only
      by_cases hlast : hold ≤ 1
      · rw [if_pos hlast, if_pos hlast, if_pos hlast]
        exact told_endRedirect s .expired hstate
      · rw [if_neg hlast, if_neg hlast, if_neg hlast]
        have h := told_setChannel s i { s.channel i with state := .redirect target (hold - 1) }
        rw [if_pos (by simp [Channel.view, hstate])] at h
        exact h.silent
    | free | mapped _ | live _ => exact (Told.refl s).silent

theorem onlyChannels_countHold (s : State) (x : Nat) : s.OnlyChannels (s.countHold x) := by
  unfold State.countHold
  split
  · split
    · unfold State.OnlyChannels
      refine (endRedirect_frame s x .expired).trans ?_
      rw [endRedirect_frame]
    · exact onlyChannels_setChannel s x _
  · exact .refl s

/-- A booth after a second event. -/
def Booth.counted (v : Booth) : Booth :=
  match v.handover with
  | none => v
  | some r => { v with handover := if r.window ≤ 1 then none else some { r with window := r.window - 1 } }

theorem visits_countWindow :
    Visits State.booth State.countWindow (fun _ v => v.counted)
      (fun x v => match v.handover with | some r => if r.window ≤ 1 then [.booth x] else [] | none => [])
      (fun x v =>
        match v.handover with
        | some r => if r.window ≤ 1 then [.handoverLapsed x r.requester v.onAirSeat] else []
        | none => []) where
  reads s i j := by
    unfold State.countWindow Booth.counted
    dsimp only
    cases hhandover : (s.booth i).handover with
    | none =>
      dsimp only
      split
      next h => rw [h]
      next => rfl
    | some r =>
      dsimp only
      by_cases hlast : r.window ≤ 1
      · rw [if_pos hlast, if_pos hlast, lapse_some s hhandover, notifyOps_eq, notify_booth, booth_setBooth]
      · rw [if_neg hlast, if_neg hlast, booth_setBooth]
  told s i := by
    unfold State.countWindow
    dsimp only
    cases hhandover : (s.booth i).handover with
    | none => exact (Told.refl s).silent
    | some r =>
      dsimp only
      by_cases hlast : r.window ≤ 1
      · rw [if_pos hlast, if_pos hlast, if_pos hlast]
        exact told_lapse s hhandover
      · rw [if_neg hlast, if_neg hlast, if_neg hlast]
        have h := told_setBooth s i { s.booth i with handover := some { r with window := r.window - 1 } }
        rw [if_pos (by rw [Booth.view, Booth.view, hhandover]; rfl)] at h
        exact h.silent

theorem onlyBooths_countWindow (s : State) (x : Nat) : s.OnlyBooths (s.countWindow x) := by
  unfold State.countWindow
  dsimp only
  cases hhandover : (s.booth x).handover with
  | none => exact .refl s
  | some r =>
    dsimp only
    split
    · rw [lapse_some s hhandover]
      exact (onlyBooths_setBooth s x _).trans (onlyBooths_notify _ .ops _)
    · exact onlyBooths_setBooth s x _

-- A minute tick at a channel (R23)

/-- A channel after a minute tick. -/
def Channel.minuted (v : Channel) : Channel :=
  if v.state.code = 2 then { v with liveMinutes := min 4294967295 (v.liveMinutes + 1) } else v

theorem countChannelMinute_eq (s : State) (i : Nat) :
    s.countChannelMinute i = if (s.channel i).state.code = 2 then s.setChannel i (s.channel i).minuted else s := by
  unfold State.countChannelMinute Channel.minuted
  split
  next l h =>
    have hcode : (ChannelState.live l).code = 2 := rfl
    rw [h, if_pos hcode, if_pos hcode, ← h]
    rfl
  next h =>
    refine (if_neg fun hcode => ?_).symm
    cases hstate : (s.channel i).state with
    | live l => exact h l hstate
    | free | mapped _ | redirect _ _ => rw [hstate] at hcode; cases hcode

theorem visits_countChannelMinute :
    Visits State.channel State.countChannelMinute (fun _ v => v.minuted) (fun _ _ => []) (fun _ _ => []) where
  reads s i j := by
    rw [countChannelMinute_eq]
    by_cases hlive : (s.channel i).state.code = 2
    · rw [if_pos hlive, channel_setChannel]
    · rw [if_neg hlive, Channel.minuted, if_neg hlive]
      split
      next h => rw [h]
      next => rfl
  told s i := by
    rw [countChannelMinute_eq]
    split
    next hlive =>
      have h := told_setChannel s i (s.channel i).minuted
      rw [if_pos (by rw [Channel.minuted, if_pos hlive]; rfl)] at h
      exact h.silent
    next => exact (Told.refl s).silent

theorem onlyChannels_countChannelMinute (s : State) (x : Nat) : s.OnlyChannels (s.countChannelMinute x) := by
  unfold State.countChannelMinute
  split
  · exact onlyChannels_setChannel s x _
  · exact .refl s

-- The overdue test and a minute tick at a seat (R42, R43)

/-- Two visits of one record, one after the other. -/
theorem Visits.comp {α : Type} {get : State → Nat → α} {f g : State → Nat → State} {new new' : Nat → α → α}
    {records records' : Nat → α → List RecordName} {notices notices' : Nat → α → List Notice}
    (h : Visits get f new records notices) (h' : Visits get g new' records' notices') :
    Visits get (fun s i => g (f s i) i) (fun i v => new' i (new i v)) (fun i v => records i v ++ records' i (new i v))
      (fun i v => notices i v ++ notices' i (new i v)) where
  reads s i j := by
    rw [h'.reads, h.reads s i i, if_pos rfl]
    split
    next => rfl
    next hne => rw [h.reads, if_neg hne]
  told s i := by
    have hg := h'.told (f s i) i
    rw [h.reads s i i, if_pos rfl] at hg
    exact (h.told s i).trans_ops hg

/-- Seat `n` of a booth is overdue and not marked so (R43). -/
def Booth.newlyOverdue (v : Booth) (n : Nat) : Bool :=
  (v.seat n).onAir && v.config.turnLimit ≤ (v.seat n).turn && !(v.seat n).overdue

/-- A booth after the overdue test of seat `n`. -/
def Booth.tested (n : Nat) (v : Booth) : Booth :=
  if v.newlyOverdue n then v.setSeat n { v.seat n with overdue := true } else v

/-- An on-air seat that has counted a minute of its turn (R42). -/
def Seat.turned (v : Seat) : Seat :=
  { v with turn := min 65535 (v.turn + 1), liveMinutes := min 4294967295 (v.liveMinutes + 1) }

/-- A booth whose on-air seat `n` has counted a minute. -/
def Booth.turned (n : Nat) (v : Booth) : Booth := if (v.seat n).onAir then v.setSeat n (v.seat n).turned else v

/-- A write to a seat that keeps its state is no part of the reserved view. -/
theorem view_setSeat (v : Booth) (n : Nat) (seat : Seat) (h : seat.state = (v.seat n).state) :
    (v.setSeat n seat).view = v.view := by
  have hstate (k : Nat) : ((v.setSeat n seat).seat k).state = (v.seat k).state := by
    rw [seat_setSeat]
    split
    next hk => rw [hk, h]
    next => rfl
  simp [Booth.view, hstate]

theorem told_setSeat (s : State) (b n : Nat) (seat : Seat) (h : seat.state = ((s.booth b).seat n).state) :
    Told s (s.setBooth b ((s.booth b).setSeat n seat)) [] toNone := by
  have htold := told_setBooth s b ((s.booth b).setSeat n seat)
  rwa [if_pos (view_setSeat _ n seat h)] at htold

theorem visits_overdueTest (n : Nat) :
    Visits State.booth (fun s b => s.overdueTest b n) (fun _ v => v.tested n) (fun _ _ => [])
      (fun b v => if v.newlyOverdue n then [.turnOverdue b n (v.seat n).turn] else []) where
  reads s b j := by
    unfold State.overdueTest Booth.tested Booth.newlyOverdue
    dsimp only
    split
    · rw [notifyOps_eq, notify_booth, booth_setBooth]
    · split
      next h => rw [h]
      next => rfl
  told s b := by
    unfold State.overdueTest Booth.newlyOverdue
    dsimp only
    split
    · exact (told_setSeat s b n { (s.booth b).seat n with overdue := true } rfl).silent.notifyOps _
    · exact (Told.refl s).silent

theorem onlyBooths_overdueTest (s : State) (b n : Nat) : s.OnlyBooths (s.overdueTest b n) := by
  unfold State.overdueTest
  dsimp only
  split
  · exact (onlyBooths_setBooth s b _).trans (onlyBooths_notify _ .ops _)
  · exact .refl s

/-- A seat off the air is not overdue. -/
theorem overdueTest_of_not_onAir {b n : Nat} (h : ((s.booth b).seat n).onAir = false) : s.overdueTest b n = s := by
  unfold State.overdueTest
  dsimp only
  rw [h]
  rfl

/-- Seat `n` of booth `b` counts a minute. -/
def State.countTurn (n : Nat) (s : State) (b : Nat) : State :=
  if ((s.booth b).seat n).onAir then s.setBooth b ((s.booth b).turned n) else s

theorem countSeatMinute_eq (s : State) (b n : Nat) : s.countSeatMinute b n = (s.countTurn n b).overdueTest b n := by
  unfold State.countSeatMinute State.countTurn Booth.turned
  dsimp only
  cases honAir : ((s.booth b).seat n).onAir with
  | false =>
    rw [if_neg (by decide), if_neg (by decide), overdueTest_of_not_onAir honAir]
  | true => rfl

theorem visits_countTurn (n : Nat) :
    Visits State.booth (State.countTurn n) (fun _ v => v.turned n) (fun _ _ => []) (fun _ _ => []) where
  reads s b j := by
    unfold State.countTurn
    split
    next => rw [booth_setBooth]
    next honAir =>
      rw [Booth.turned, if_neg honAir]
      split
      next h => rw [h]
      next => rfl
  told s b := by
    unfold State.countTurn
    split
    next honAir =>
      rw [Booth.turned, if_pos honAir]
      exact (told_setSeat s b n ((s.booth b).seat n).turned rfl).silent
    next => exact (Told.refl s).silent

/-- A booth whose seat `n` has taken a minute tick. -/
def Booth.minutedSeat (n : Nat) (v : Booth) : Booth := (v.turned n).tested n

theorem Booth.turned_seat (n k : Nat) (v : Booth) :
    (v.turned n).seat k =
      if k = n then if (v.seat n).onAir then (v.seat n).turned else v.seat n else v.seat k := by
  unfold Booth.turned
  split
  · exact seat_setSeat v n k _
  · split
    next h => rw [h]
    next => rfl

theorem Booth.turned_eq (n : Nat) (v : Booth) : v.turned n = { v with seats := (v.turned n).seats } := by
  unfold Booth.turned
  split <;> rfl

theorem Booth.tested_eq (n : Nat) (v : Booth) : v.tested n = { v with seats := (v.tested n).seats } := by
  unfold Booth.tested
  split <;> rfl

theorem Booth.minutedSeat_eq (n : Nat) (v : Booth) :
    v.minutedSeat n = { v with seats := (v.minutedSeat n).seats } := by
  unfold Booth.minutedSeat
  rw [Booth.tested_eq, Booth.turned_eq]

theorem Booth.minutedSeat_config (n : Nat) (v : Booth) : (v.minutedSeat n).config = v.config := by
  rw [Booth.minutedSeat_eq]

theorem Booth.minutedSeat_seat (n k : Nat) (v : Booth) :
    (v.minutedSeat n).seat k = if k = n then minuteSeat v n else v.seat k := by
  have hconfig : (v.turned n).config = v.config := by rw [Booth.turned_eq]
  have hother (h : k ≠ n) : (v.turned n).seat k = v.seat k := by rw [Booth.turned_seat, if_neg h]
  have hsame : (v.turned n).seat n = _ := (Booth.turned_seat n n v).trans (if_pos rfl)
  unfold Booth.minutedSeat Booth.tested Booth.newlyOverdue minuteSeat
  by_cases hk : k = n
  · subst hk
    rw [if_pos rfl]
    cases honAir : (v.seat k).onAir with
    | false => simp [hsame, honAir]
    | true =>
      have honAir' : (v.seat k).turned.onAir = true := honAir
      rw [honAir, if_pos rfl] at hsame
      rw [hsame, honAir', hconfig]
      dsimp only
      rw [if_pos honAir]
      cases hoverdue : (v.seat k).overdue <;>
        by_cases hlimit : v.config.turnLimit ≤ min 65535 ((v.seat k).turn + 1) <;>
        simp [hsame, Seat.turned, hlimit, hoverdue, -le_inf_iff]
  · rw [if_neg hk]
    split
    · rw [seat_setSeat, if_neg hk, hother hk]
    · exact hother hk

theorem minuteSeat_congr {v w : Booth} {n : Nat} (hseat : w.seat n = v.seat n) (hconfig : w.config = v.config) :
    minuteSeat w n = minuteSeat v n := by
  unfold minuteSeat
  rw [hseat, hconfig]

/-- The notices of a minute tick at seat `n` of booth `b`. -/
def seatNotices (n b : Nat) (v : Booth) : List Notice :=
  if (minuteSeat v n).overdue = true ∧ (v.seat n).overdue = false then [.turnOverdue b n (minuteSeat v n).turn] else []

theorem seatNotices_congr {v w : Booth} {n b : Nat} (hseat : w.seat n = v.seat n) (hconfig : w.config = v.config) :
    seatNotices n b w = seatNotices n b v := by
  unfold seatNotices
  rw [minuteSeat_congr hseat hconfig, hseat]

/-- TURN_OVERDUE comes of the overdue test of the turn as it then stands. -/
theorem seatNotices_eq (n b : Nat) (v : Booth) :
    (if (v.turned n).newlyOverdue n then [Notice.turnOverdue b n ((v.turned n).seat n).turn] else []) =
      seatNotices n b v := by
  have hconfig : (v.turned n).config = v.config := by rw [Booth.turned_eq]
  have hsame : (v.turned n).seat n = _ := (Booth.turned_seat n n v).trans (if_pos rfl)
  unfold Booth.newlyOverdue seatNotices minuteSeat
  dsimp only
  rw [hsame, hconfig]
  by_cases honAir : (v.seat n).onAir = true
  · have honAir' : (v.seat n).turned.onAir = true := honAir
    rw [if_pos honAir, if_pos honAir, honAir']
    cases hoverdue : (v.seat n).overdue <;> simp [Seat.turned, hoverdue, -le_inf_iff]
  · rw [if_neg honAir, if_neg honAir]
    cases hoverdue : (v.seat n).overdue <;> simp [honAir]

theorem visits_countSeatMinute (n : Nat) :
    Visits State.booth (fun s b => s.countSeatMinute b n) (fun _ v => v.minutedSeat n) (fun _ _ => [])
      (seatNotices n) where
  reads s b j := by
    rw [countSeatMinute_eq]
    exact ((visits_countTurn n).comp (visits_overdueTest n)).reads s b j
  told s b := by
    rw [countSeatMinute_eq, ← seatNotices_eq]
    exact ((visits_countTurn n).comp (visits_overdueTest n)).told s b

theorem onlyBooths_countSeatMinute (s : State) (b n : Nat) : s.OnlyBooths (s.countSeatMinute b n) := by
  rw [countSeatMinute_eq]
  refine .trans ?_ (onlyBooths_overdueTest _ b n)
  unfold State.countTurn
  split
  · exact onlyBooths_setBooth s b _
  · exact .refl s

-- A minute tick (R199)

/-- A minute tick at the three seats of booth `b`. -/
def State.countBoothMinute (s : State) (b : Nat) : State :=
  ((s.countSeatMinute b 1).countSeatMinute b 2).countSeatMinute b 3

/-- A chain over the 48 seats is a chain over the booths. -/
theorem foldl_seats (f : State → Nat × Nat → State) (l : List Nat) (s : State) :
    (l.flatMap fun b => [(b, 1), (b, 2), (b, 3)]).foldl f s =
      l.foldl (fun s b => f (f (f s (b, 1)) (b, 2)) (b, 3)) s := by
  induction l generalizing s with
  | nil => rfl
  | cons b rest ih => rw [List.flatMap_cons, List.foldl_append, ih, List.foldl_cons, List.foldl_cons, List.foldl_cons,
      List.foldl_cons, List.foldl_nil]

theorem countSeatMinutes_eq (s : State) : s.countSeatMinutes = (List.range' 1 16).foldl State.countBoothMinute s :=
  foldl_seats _ _ s

/-- A booth after a minute tick. -/
def Booth.minuted (v : Booth) : Booth := ((v.minutedSeat 1).minutedSeat 2).minutedSeat 3

theorem Booth.minuted_eq (v : Booth) : v.minuted = { v with seats := v.minuted.seats } := by
  unfold Booth.minuted
  rw [Booth.minutedSeat_eq, Booth.minutedSeat_eq 2, Booth.minutedSeat_eq 1]

/-- The minute tick at a seat does not reach the other seats of the booth. -/
theorem Booth.minuted_seat (v : Booth) (n : Nat) :
    v.minuted.seat n = if 1 ≤ n ∧ n ≤ 3 then minuteSeat v n else v.seat n := by
  have h2 : minuteSeat (v.minutedSeat 1) 2 = minuteSeat v 2 :=
    minuteSeat_congr (by simp [Booth.minutedSeat_seat]) (Booth.minutedSeat_config 1 v)
  have h3 : minuteSeat ((v.minutedSeat 1).minutedSeat 2) 3 = minuteSeat v 3 :=
    minuteSeat_congr (by simp [Booth.minutedSeat_seat]) (by simp [Booth.minutedSeat_config])
  unfold Booth.minuted
  rw [Booth.minutedSeat_seat, Booth.minutedSeat_seat, Booth.minutedSeat_seat, h2, h3]
  by_cases hn : 1 ≤ n ∧ n ≤ 3
  · rw [if_pos hn]
    obtain rfl | rfl | rfl : n = 1 ∨ n = 2 ∨ n = 3 := by omega
    all_goals rfl
  · rw [if_neg hn, if_neg (by omega), if_neg (by omega), if_neg (by omega)]

/-- The notices of a minute tick at booth `b`. -/
def boothNotices (b : Nat) (v : Booth) : List Notice := [1, 2, 3].flatMap fun n => seatNotices n b v

theorem minuteNotices_eq (s : State) :
    minuteNotices s = (List.range' 1 16).flatMap fun b => boothNotices b (s.booth b) := rfl

theorem boothNotices_congr {v w : Booth} {b : Nat} (hseats : w.seats = v.seats) (hconfig : w.config = v.config) :
    boothNotices b w = boothNotices b v := by
  have hseat (n : Nat) : w.seat n = v.seat n := by rw [Booth.seat, hseats, Booth.seat]
  exact List.flatMap_congr fun n _ => seatNotices_congr (hseat n) hconfig

theorem visits_countBoothMinute :
    Visits State.booth State.countBoothMinute (fun _ v => v.minuted) (fun _ _ => []) boothNotices where
  reads s b j :=
    (((visits_countSeatMinute 1).comp (visits_countSeatMinute 2)).comp (visits_countSeatMinute 3)).reads s b j
  told s b := by
    have h := (((visits_countSeatMinute 1).comp (visits_countSeatMinute 2)).comp (visits_countSeatMinute 3)).told s b
    have h2 : seatNotices 2 b ((s.booth b).minutedSeat 1) = seatNotices 2 b (s.booth b) :=
      seatNotices_congr (by simp [Booth.minutedSeat_seat]) (Booth.minutedSeat_config 1 _)
    have h3 : seatNotices 3 b (((s.booth b).minutedSeat 1).minutedSeat 2) = seatNotices 3 b (s.booth b) :=
      seatNotices_congr (by simp [Booth.minutedSeat_seat]) (by simp [Booth.minutedSeat_config])
    rw [h2, h3] at h
    simpa [boothNotices, State.countBoothMinute] using h

theorem onlyBooths_countBoothMinute (s : State) (b : Nat) : s.OnlyBooths (s.countBoothMinute b) :=
  ((onlyBooths_countSeatMinute s b 1).trans (onlyBooths_countSeatMinute _ b 2)).trans
    (onlyBooths_countSeatMinute _ b 3)

theorem flatMap_nothing {α β : Type} (l : List α) : (l.flatMap fun _ => ([] : List β)) = [] :=
  List.flatMap_eq_nil_iff.2 fun _ _ => rfl

/-- What a minute tick does. -/
structure TicksMinute (s t : State) : Prop where
  second  : t.second = 0
  minute  : t.minute = min 16777215 (s.minute + 1)
  channel : ∀ x, t.channel x = if x ∈ List.range' 1 24 then (s.channel x).minuted else s.channel x
  booth   : ∀ x, t.booth x = if x ∈ List.range' 1 16 then (s.booth x).minuted else s.booth x
  told    : Told s t [] (toOps (minuteNotices s))
  frame   : s.OnlyTimed t

theorem mem_channels {x : Nat} : x ∈ List.range' 1 24 ↔ 1 ≤ x ∧ x ≤ 24 := by
  rw [List.mem_range'_1]
  omega

theorem mem_booths {x : Nat} : x ∈ List.range' 1 16 ↔ 1 ≤ x ∧ x ≤ 16 := by
  rw [List.mem_range'_1]
  omega

theorem State.OnlyBooths.channel {s t : State} (h : s.OnlyBooths t) (x : Nat) : t.channel x = s.channel x := by
  unfold State.OnlyBooths at h
  rw [h]
  rfl

theorem State.OnlyBooths.second {s t : State} (h : s.OnlyBooths t) : t.second = s.second ∧ t.minute = s.minute := by
  unfold State.OnlyBooths at h
  rw [h]
  exact ⟨rfl, rfl⟩

theorem State.OnlyChannels.second {s t : State} (h : s.OnlyChannels t) :
    t.second = s.second ∧ t.minute = s.minute := by
  unfold State.OnlyChannels at h
  rw [h]
  exact ⟨rfl, rfl⟩

theorem ticksMinute_tickMinute (s : State) : TicksMinute s s.tickMinute := by
  unfold State.tickMinute
  rw [countSeatMinutes_eq]
  unfold State.countChannelMinutes
  have hclock : Told s { s with second := 0, minute := satAdd Config.topMinute s.minute 1 } [] toNone := Told.refl s
  have hset : s.OnlyTimed { s with second := 0, minute := satAdd Config.topMinute s.minute 1 } := rfl
  generalize hbegun : ({ s with second := 0, minute := satAdd Config.topMinute s.minute 1 } : State) = begun at hclock hset
  have hchannels : begun.OnlyChannels ((List.range' 1 24).foldl State.countChannelMinute begun) :=
    .foldl (.refl _) _ fun u x => onlyChannels_countChannelMinute u x
  have hchannel := visits_countChannelMinute.reads_foldl (l := List.range' 1 24) List.nodup_range' begun
  have htold := visits_countChannelMinute.told_foldl (l := List.range' 1 24) List.nodup_range' begun
  generalize (List.range' 1 24).foldl State.countChannelMinute begun = counted at hchannels hchannel htold
  have hbooths : counted.OnlyBooths ((List.range' 1 16).foldl State.countBoothMinute counted) :=
    .foldl (.refl _) _ fun u x => onlyBooths_countBoothMinute u x
  have hnotices : (List.range' 1 16).flatMap (fun b => boothNotices b (counted.booth b)) = minuteNotices s := by
    rw [minuteNotices_eq]
    refine List.flatMap_congr fun b _ => ?_
    rw [hchannels.booth, ← hbegun]
    rfl
  have htold' := visits_countBoothMinute.told_foldl (l := List.range' 1 16) List.nodup_range' counted
  rw [hnotices] at htold'
  refine ⟨?_, ?_, fun x => ?_, fun x => ?_, ?_, (hset.trans hchannels.timed).trans hbooths.timed⟩
  · rw [hbooths.second.1, hchannels.second.1, ← hbegun]
  · rw [hbooths.second.2, hchannels.second.2, ← hbegun]
    rfl
  · rw [hbooths.channel, hchannel, ← hbegun]
    rfl
  · rw [visits_countBoothMinute.reads_foldl List.nodup_range', hchannels.booth, ← hbegun]
    rfl
  · simpa [flatMap_nothing] using (hclock.silent.trans_ops htold).trans_ops htold'

theorem onlyTimed_feedWork (s : State) : s.OnlyTimed s.feedWork := (onlyBooths_feedWork s).timed

/-- Settles O31: the channels and the seats are visited in their order, each as it stood. -/
theorem minuteTickCounts : Obligations.MinuteTickCounts := by
  intro s hr
  obtain ⟨hsecond, hminute, hchannel, hbooth, htold, hframe⟩ := ticksMinute_tickMinute s
  refine ⟨_, event_next rfl hr rfl, by simpa using hsecond, by simpa using hminute, fun x => ?_, fun b n => ?_,
    fun b => ?_, htold.feedWork, hframe.trans (onlyTimed_feedWork _)⟩
  · rw [feedWork_channel, hchannel]
    simp only [mem_channels, Channel.minuted]
    by_cases hx : 1 ≤ x ∧ x ≤ 24 <;> simp [← and_assoc, hx]
  · rw [feedWork_booth, hbooth]
    simp only [mem_booths]
    by_cases hb : 1 ≤ b ∧ b ≤ 16 <;> simp [← and_assoc, hb, Booth.minuted_seat]
  · rw [feedWork_booth, hbooth]
    split
    · exact Booth.minuted_eq _
    · rfl

-- A second event (R198)

/-- The redirects' holds and the requests' windows after a second event. -/
def State.countDown (s : State) : State :=
  (List.range' 1 16).foldl State.countWindow ((List.range' 1 24).foldl State.countHold s)

/-- What a second event does to the holds and the windows. -/
structure CountsDown (s t : State) : Prop where
  second  : t.second = s.second
  minute  : t.minute = s.minute
  channel : ∀ x, t.channel x = if x ∈ List.range' 1 24 then (s.channel x).counted else s.channel x
  booth   : ∀ x, t.booth x = if x ∈ List.range' 1 16 then (s.booth x).counted else s.booth x
  told    : Told s t (secondRecords s) (toOps (secondNotices s))
  frame   : s.OnlyTimed t

theorem secondRecords_eq (s : State) :
    secondRecords s =
      ((List.range' 1 24).flatMap fun x =>
        match (s.channel x).state with | .redirect _ hold => if hold ≤ 1 then [.channel x] else [] | _ => []) ++
      (List.range' 1 16).flatMap fun x =>
        match (s.booth x).handover with | some r => if r.window ≤ 1 then [.booth x] else [] | none => [] := by
  unfold secondRecords
  rw [List.filterMap_eq_flatMap_toList, List.filterMap_eq_flatMap_toList]
  refine congrArg₂ _ (List.flatMap_congr fun x _ => ?_) (List.flatMap_congr fun x _ => ?_)
  · cases (s.channel x).state with
    | redirect target hold => by_cases h : hold ≤ 1 <;> simp [h]
    | free | mapped _ | live _ => rfl
  · cases (s.booth x).handover with
    | some r => by_cases h : r.window ≤ 1 <;> simp [h]
    | none => rfl

theorem countsDown_countDown (s : State) : CountsDown s s.countDown := by
  unfold State.countDown
  have hchannels : s.OnlyChannels ((List.range' 1 24).foldl State.countHold s) :=
    .foldl (.refl _) _ fun u x => onlyChannels_countHold u x
  have hchannel := visits_countHold.reads_foldl (l := List.range' 1 24) List.nodup_range' s
  have htold := visits_countHold.told_foldl (l := List.range' 1 24) List.nodup_range' s
  generalize (List.range' 1 24).foldl State.countHold s = held at hchannels hchannel htold
  have hbooths : held.OnlyBooths ((List.range' 1 16).foldl State.countWindow held) :=
    .foldl (.refl _) _ fun u x => onlyBooths_countWindow u x
  have htold' := visits_countWindow.told_foldl (l := List.range' 1 16) List.nodup_range' held
  simp only [hchannels.booth] at htold'
  refine ⟨hbooths.second.1.trans hchannels.second.1, hbooths.second.2.trans hchannels.second.2,
    fun x => (hbooths.channel x).trans (hchannel x), fun x => ?_, ?_, hchannels.timed.trans hbooths.timed⟩
  · rw [visits_countWindow.reads_foldl List.nodup_range', hchannels.booth]
  · rw [secondRecords_eq]
    exact htold.trans_ops htold'

theorem Booth.counted_eq (v : Booth) : v.counted = { v with handover := v.counted.handover } := by
  unfold Booth.counted
  split <;> rfl

/-- No second event makes or ends a LIVE channel. -/
theorem Channel.minuted_counted (v : Channel) :
    v.counted.minuted =
      if v.state.code = 2 then { v with liveMinutes := min 4294967295 (v.liveMinutes + 1) } else v.counted := by
  unfold Channel.counted
  cases hstate : v.state with
  | redirect target hold =>
    dsimp only
    rw [if_neg (show ¬ (ChannelState.redirect target hold).code = 2 by simp [ChannelState.code])]
    refine if_neg ?_
    dsimp only
    split <;> simp [ChannelState.code]
  | free | mapped _ | live _ => rw [Channel.minuted, hstate]

theorem tickSecond_eq (s : State) : s.tickSecond = s.countDown.countSecond := rfl

/-- Settles O30: the holds, the windows and, at the sixtieth second event, the minute tick, each by its own visits. -/
theorem secondEventCounts : Obligations.SecondEventCounts := by
  refine ⟨fun s hr hlow => ?_, fun s hr hhigh => ?_⟩
  · have hcounts := countsDown_countDown s
    have htick : s.tickSecond = { s.countDown with second := s.countDown.second + 1 } := by
      rw [tickSecond_eq, State.countSecond, if_neg (by rw [hcounts.second]; omega)]
    generalize s.countDown = u at hcounts htick
    obtain ⟨hsecond, hminute, hchannel, hbooth, htold, hframe⟩ := hcounts
    have hall : s.OnlyTimed { u with second := u.second + 1 } := hframe.trans rfl
    refine ⟨_, event_next rfl hr htick, by simp [hsecond], fun x => ?_, fun x => ?_, Told.feedWork htold, ?_⟩
    · rw [feedWork_channel]
      simp only [mem_channels] at hchannel
      exact hchannel x
    · rw [feedWork_booth]
      simp only [mem_booths] at hbooth
      exact hbooth x
    · have h := hall.trans (onlyTimed_feedWork _)
      unfold State.OnlyTimed at h
      simpa [hminute] using h
  · have hcounts := countsDown_countDown s
    have htick : s.tickSecond = s.countDown.tickMinute := by
      rw [tickSecond_eq, State.countSecond, if_pos (by rw [hcounts.second]; omega)]
    have hticks := ticksMinute_tickMinute s.countDown
    generalize s.countDown.tickMinute = t at hticks htick
    generalize s.countDown = u at hcounts hticks
    have hnotices : minuteNotices u = minuteNotices s := by
      rw [minuteNotices_eq, minuteNotices_eq]
      refine List.flatMap_congr fun b hb => ?_
      rw [hcounts.booth, if_pos hb]
      exact boothNotices_congr (by rw [Booth.counted_eq]) (by rw [Booth.counted_eq])
    obtain ⟨hsecond, hminute, hchannel, hbooth, htold, hframe⟩ := hticks
    rw [hnotices] at htold
    refine ⟨_, event_next rfl hr htick, by simpa using hsecond, by simp [hminute, hcounts.minute], fun x => ?_,
      fun b => ?_, fun b n => ?_, ?_, (hcounts.frame.trans hframe).trans (onlyTimed_feedWork _)⟩
    · rw [feedWork_channel, hchannel, hcounts.channel]
      simp only [mem_channels]
      by_cases hx : 1 ≤ x ∧ x ≤ 24
      · simp only [if_pos hx]
        exact Channel.minuted_counted _
      · simp only [if_neg hx]
    · rw [feedWork_booth, hbooth, hcounts.booth]
      simp only [mem_booths]
      split
      · exact Booth.minuted_eq _
      · rfl
    · rw [feedWork_booth, hbooth, hcounts.booth]
      simp only [mem_booths]
      by_cases hb : 1 ≤ b ∧ b ≤ 16
      · have hseat : (s.booth b).counted.seat n = (s.booth b).seat n := by rw [Booth.counted_eq]; rfl
        have hconfig : (s.booth b).counted.config = (s.booth b).config := by rw [Booth.counted_eq]
        rw [if_pos hb, if_pos hb, Booth.minuted_seat, minuteSeat_congr hseat hconfig, hseat]
        simp only [hb, true_and]
      · simp only [← and_assoc, hb, false_and, if_false]
    · have h := hcounts.told.trans_ops htold
      rw [List.append_nil] at h
      exact h.feedWork

end Sys2Proof.Machine
end

section
/-!
PROOFS. STATUS (R182, R204) and REPORT_CLEAR (R168), settled.
-/
namespace Sys2Proof.Machine

-- What touches the ports alone

/-- But for the ports and the feed link, `t` is as `s`. -/
def State.OnlyPorts (s t : State) : Prop :=
  t = { s with opsPort := t.opsPort, deskAPort := t.deskAPort, deskBPort := t.deskBPort, feed := t.feed }

theorem State.OnlyPorts.refl (s : State) : s.OnlyPorts s := rfl

theorem State.OnlyPorts.trans {s t u : State} (h : s.OnlyPorts t) (h' : t.OnlyPorts u) : s.OnlyPorts u := by
  unfold State.OnlyPorts at *
  rw [h] at h'
  exact h'

theorem onlyPorts_setPort (s : State) (p : Port) (q : PortState) : s.OnlyPorts (s.setPort p q) := by cases p <;> rfl

theorem onlyPorts_after (s : State) (p : Port) (tag code : Byte) (r : Reply) : s.OnlyPorts (s.after p tag code r) :=
  after_frame s p tag code r

theorem State.OnlyPorts.channels {s t : State} (h : s.OnlyPorts t) : s.OnlyChannels t := by
  unfold State.OnlyPorts at h
  unfold State.OnlyChannels
  rw [h]

-- STATUS (R182)

theorem exec_status (s : State) (p : Port) (tag : Byte) (payload : List Byte) :
    exec (.status p tag payload) s =
      .next (s.command p tag CommandName.status.code payload fun s =>
        s.answer .status p payload (doStatus p payload)) := rfl

/-- In INSTALL a command that may be given there, from a port with no command in hand, is carried out by its own rule; the
feed link rests (R204). -/
theorem install_next {s : State} {p : Port} {tag : Byte} {payload : List Byte} {name : CommandName}
    {f : State → State × Reply} (hr : s.run = .install) (hi : (s.port p).inHand = none)
    (hin : name.inInstall p = true) (hp : name.permitted p = true) (hl : name.lengthOk payload.length = true) :
    s.command p tag name.code payload (fun s => s.answer name p payload f) =
      ((f s).1.setPort p (((f s).1.port p).hand tag name.code (f s).2)).feedWork := by
  have hown : s.answer name p payload f = f s := by simp [State.answer, hin, hp, hl]
  simp [State.command, hr, hi, take_eq, hown]

theorem feedWork_install {s : State} (h : s.run = .install) : s.feedWork = s := by
  unfold State.feedWork
  simp [h]

/-- The flags of a port whose rack is known: the desk's rack and its buffer, none for the operations port. -/
theorem statusFlags_eq (s : State) (p : Port) :
    s.statusFlags p =
      (if s.clamped then 1 else 0) + (if s.suspectReported then 2 else 0) + (if (s.port p).frameError then 4 else 0) +
        (if (s.port p).overflow then 8 else 0) +
        (match p with
         | .ops => 0
         | .deskA => 16 + (if s.bufferA.isSome then 32 else 0)
         | .deskB => (if 2 ≤ s.profile.racks then 16 else 0) + (if s.bufferB.isSome then 32 else 0)) := by
  cases p with
  | ops => rfl
  | deskA => simp [State.statusFlags, ownRack, State.rackFitted, State.buffer]; rfl
  | deskB => simp [State.statusFlags, ownRack, State.rackFitted, State.buffer]; rfl

/-- Settles O32: STATUS is its own rule, which clears the port's frame-error flag, and the reply. -/
theorem statusReports : Obligations.StatusReports := by
  refine ⟨fun s p tag ht => ?_, fun s tag hr hi => ?_⟩
  · refine ⟨_, (exec_status s p tag []).trans (client_next (name := .status) ht rfl rfl rfl), ?_, fun x hx => ?_,
      (onlyPorts_setPort s p _).trans (onlyPorts_after _ p tag _ _)⟩
    · rw [port_after, if_pos rfl, port_setPort, if_pos rfl]
      have hrun : s.run ≠ .install := by rw [ht.1]; decide
      simp only [State.statusFields, State.startKindReported, statusFlags_eq, State.suspectReported, hrun,
        decide_false, Bool.false_or]
      cases s.startKind <;> rfl
    · rw [port_after, if_neg hx, port_setPort, if_neg hx]
  · refine ⟨_, (exec_status s .ops tag []).trans (congrArg _ (install_next (name := .status) hr hi rfl rfl rfl)), ?_, ?_⟩
    · rw [feedWork_port, port_setPort, if_pos rfl]
      simp only [doStatus, port_setPort, if_true, State.statusFields, State.startKindReported, statusFlags_eq,
        State.suspectReported, hr, decide_true, Bool.true_or]
      cases s.marker <;> rfl
    · rw [feedWork_install (by exact hr)]
      rfl

-- REPORT_CLEAR (R23, R44, R168)

theorem visits_clearChannelMinutes :
    Visits State.channel State.clearChannelMinutes (fun _ v => { v with liveMinutes := 0 }) (fun _ _ => [])
      (fun _ _ => []) where
  reads s i j := channel_setChannel s i j _
  told s i := by
    have h := told_setChannel s i { s.channel i with liveMinutes := 0 }
    rw [if_pos (by rfl)] at h
    exact h.silent

/-- A booth whose seat `n` has its live-minutes cleared. -/
def Booth.clearedSeat (n : Nat) (v : Booth) : Booth := v.setSeat n { v.seat n with liveMinutes := 0 }

theorem visits_clearSeatMinutes (n : Nat) :
    Visits State.booth (fun s b => s.clearSeatMinutes (b, n)) (fun _ v => v.clearedSeat n) (fun _ _ => [])
      (fun _ _ => []) where
  reads s b j := booth_setBooth s b j _
  told s b := (told_setSeat s b n { (s.booth b).seat n with liveMinutes := 0 } rfl).silent

/-- A booth with the live-minutes of its three seats cleared. -/
def Booth.cleared (v : Booth) : Booth := ((v.clearedSeat 1).clearedSeat 2).clearedSeat 3

theorem Booth.cleared_eq (v : Booth) : v.cleared = { v with seats := v.cleared.seats } := rfl

theorem Booth.cleared_seat (v : Booth) (n : Nat) :
    v.cleared.seat n = if 1 ≤ n ∧ n ≤ 3 then { v.seat n with liveMinutes := 0 } else v.seat n := by
  unfold Booth.cleared Booth.clearedSeat
  simp only [seat_setSeat]
  by_cases hn : 1 ≤ n ∧ n ≤ 3
  · rw [if_pos hn]
    obtain rfl | rfl | rfl : n = 1 ∨ n = 2 ∨ n = 3 := by omega
    all_goals simp
  · rw [if_neg hn, if_neg (by omega), if_neg (by omega), if_neg (by omega)]

/-- The live-minutes of the three seats of booth `b` cleared. -/
def State.clearBoothMinutes (s : State) (b : Nat) : State :=
  ((s.clearSeatMinutes (b, 1)).clearSeatMinutes (b, 2)).clearSeatMinutes (b, 3)

theorem visits_clearBoothMinutes :
    Visits State.booth State.clearBoothMinutes (fun _ v => v.cleared) (fun _ _ => []) (fun _ _ => []) :=
  ((visits_clearSeatMinutes 1).comp (visits_clearSeatMinutes 2)).comp (visits_clearSeatMinutes 3)

theorem foldl_clearSeatMinutes (s : State) :
    allSeats.foldl State.clearSeatMinutes s = (List.range' 1 16).foldl State.clearBoothMinutes s := foldl_seats _ _ s

theorem onlyBooths_clearBoothMinutes (s : State) (b : Nat) : s.OnlyBooths (s.clearBoothMinutes b) :=
  ((onlyBooths_setBooth s b _).trans (onlyBooths_setBooth _ b _)).trans (onlyBooths_setBooth _ b _)

/-- A chain of visits that tell nothing and clear no reservation. -/
theorem Visits.quiet_foldl {α : Type} {get : State → Nat → α} {f : State → Nat → State} {new : Nat → α → α}
    (h : Visits get f new (fun _ _ => []) (fun _ _ => [])) {l : List Nat} (hl : l.Nodup) (s : State) :
    Told s (l.foldl f s) [] toNone := by
  have htold := h.told_foldl hl s
  rwa [flatMap_nothing, flatMap_nothing, toOps_nil] at htold

/-- The report counters of the classes `l` cleared: the reports alone are written. -/
theorem foldl_setReport_frame (l : List Nat) (s : State) :
    l.foldl (fun s k => s.setReport k .initial) s =
      { s with reports := (l.foldl (fun s k => s.setReport k .initial) s).reports } := by
  induction l generalizing s with
  | nil => rfl
  | cons k rest ih =>
    rw [List.foldl_cons, ih]
    rfl

theorem exec_reportClear (s : State) (p : Port) (tag : Byte) (payload : List Byte) :
    exec (.reportClear p tag payload) s =
      .next (s.command p tag CommandName.reportClear.code payload fun s =>
        s.answer .reportClear p payload (doReportClear p payload)) := rfl

theorem doReportClear_refused {s : State} {group : Byte} {x : Result}
    (h : firstFailure [(decide (2 < group.toNat), Result.badArg)] = some x) :
    doReportClear .ops [group] s = refuse s x := by
  rw [firstFailure_cons, firstFailure_nil] at h
  by_cases hgroup : 2 < group.toNat
  · rw [if_pos (by simpa using hgroup)] at h
    have hne (b : Byte) (hb : b.toNat ≤ 2) : group ≠ b := fun e => absurd (e ▸ hb) (by omega)
    simp only [doReportClear, if_neg (hne 0x00 (by decide)), if_neg (hne 0x01 (by decide)),
      if_neg (hne 0x02 (by decide)), Option.some.inj h]
  · rw [if_neg (by simpa using hgroup)] at h
    cases h

theorem doReportClear_reports (s : State) :
    ∃ u, doReportClear .ops [0x02] s = (u, .bare .ok) ∧ u = { s with reports := u.reports } ∧
      ∀ k, u.report k = if k ≤ 7 then ⟨0, 0, 0, 0⟩ else s.report k := by
  refine ⟨_, rfl, foldl_setReport_frame _ s, fun k => ?_⟩
  rw [foldl_reads (get := State.report) (f := fun s k => s.setReport k .initial) (g := fun _ _ => ClassReport.initial)
    (fun s i j => report_setReport s i j _) List.nodup_range s k]
  by_cases hk : k ≤ 7
  · rw [if_pos hk, if_pos (List.mem_range.2 (by omega))]
    rfl
  · rw [if_neg hk, if_neg fun h => hk (by have := List.mem_range.1 h; omega)]

/-- Settles O36: each group's counters are cleared by visits that are no part of a reserved view. -/
theorem reportClearClears : Obligations.ReportClearClears := by
  refine ⟨fun s tag group ht => refusedBy_own (name := .reportClear) rfl ht rfl rfl
    fun x hx => doReportClear_refused hx, fun s tag ht => ⟨?_, ?_, ?_⟩⟩
  · refine ⟨_, (exec_reportClear s .ops tag [0x00]).trans (client_next (name := .reportClear) ht rfl rfl rfl),
      fun x => ?_, answered_after (visits_clearChannelMinutes.quiet_foldl List.nodup_range' s), ?_⟩
    · rw [after_channel, visits_clearChannelMinutes.reads_foldl List.nodup_range']
      simp only [mem_channels]
    · exact (State.OnlyChannels.foldl (.refl s) _ fun u x => onlyChannels_setChannel u x _).trans
        (onlyPorts_after _ _ _ _ _).channels
  · refine ⟨_, (exec_reportClear s .ops tag [0x01]).trans (client_next (name := .reportClear) ht rfl rfl
      (congrArg (·, Reply.bare .ok) (foldl_clearSeatMinutes s))),
      fun b n => ?_, fun b => ?_, answered_after (visits_clearBoothMinutes.quiet_foldl List.nodup_range' s), ?_⟩
    · rw [after_booth, visits_clearBoothMinutes.reads_foldl List.nodup_range']
      simp only [mem_booths]
      by_cases hb : 1 ≤ b ∧ b ≤ 16 <;> simp [← and_assoc, hb, Booth.cleared_seat]
    · rw [after_booth, visits_clearBoothMinutes.reads_foldl List.nodup_range']
      split
      · exact Booth.cleared_eq _
      · rfl
    · exact (State.OnlyBooths.foldl (.refl s) _ fun u x => onlyBooths_clearBoothMinutes u x).trans
        (onlyBooths_after _ _ _ _ _)
  · obtain ⟨u, hdo, hframe, hread⟩ := doReportClear_reports s
    have htold : Told s u [] toNone := fun p => by rw [hframe]; rfl
    refine ⟨_, (exec_reportClear s .ops tag [0x02]).trans (client_next (name := .reportClear) ht rfl rfl hdo),
      fun k => (after_report ..).trans (hread k), answered_after htold, ?_⟩
    have h := onlyPorts_after u .ops tag CommandName.reportClear.code (.bare .ok)
    generalize State.after _ _ _ _ _ = t at h ⊢
    rw [hframe] at h
    unfold State.OnlyPorts at h
    rw [h]

end Sys2Proof.Machine
end

section
/-!
PROOFS. READ (R181) and READ_RESERVE (R188), settled.
-/
namespace Sys2Proof.Machine

variable {s : State}

-- The checks of a selector (R181, R209)

theorem rackOf_of_lt {b : Byte} (h : 1 < b.toNat) : rackOf b = none := by
  have hne (c : Byte) (hc : c.toNat ≤ 1) : b ≠ c := fun e => absurd (e ▸ hc) (by omega)
  rw [rackOf, if_neg (hne 0x00 (by decide)), if_neg (hne 0x01 (by decide))]

theorem findSlot_bad {x y : Byte} (h : 1 < x.toNat ∨ 31 < y.toNat) : s.findSlot x y = .refuse .badArg := by
  unfold State.findSlot
  by_cases hx : 1 < x.toNat
  · rw [rackOf_of_lt hx]
  · cases rackOf x with
    | none => rfl
    | some r => exact if_pos (h.resolve_left hx)

theorem findReport_bad {x : Byte} (h : 2 < x.toNat) : s.findReport x = .refuse .badArg := by
  have hne (c : Byte) (hc : c.toNat ≤ 2) : x ≠ c := fun e => absurd (e ▸ hc) (by omega)
  rw [State.findReport, if_neg (hne 0x00 (by decide)), if_neg (hne 0x01 (by decide)), if_neg (hne 0x02 (by decide))]

theorem findSettlement_bad {x y z : Byte} (h : 1 < x.toNat ∨ y ≠ 0x00 ∨ z ≠ 0x00) :
    s.findSettlement .ops x y z = .refuse .badArg := by
  unfold State.findSettlement
  by_cases hyz : y ≠ 0x00 ∨ z ≠ 0x00
  · exact if_pos (by simpa using hyz)
  · refine (if_neg (by simpa using hyz)).trans ?_
    rw [rackOf_of_lt (h.resolve_right hyz)]

/-- The serials 0 and 16,777,215 alone are none (R104). -/
theorem serialOk_num3 {x y z : Byte}
    (h : (x = 0x00 ∧ y = 0x00 ∧ z = 0x00) ∨ (x = 0xFF ∧ y = 0xFF ∧ z = 0xFF)) : serialOk (num3 x y z) = false := by
  obtain ⟨rfl, rfl, rfl⟩ | ⟨rfl, rfl, rfl⟩  := h <;> decide

theorem toNat_zero_iff (b : Byte) : b.toNat = 0 ↔ b = 0x00 := by
  constructor
  · intro h
    exact BitVec.eq_of_toNat_eq h
  · rintro rfl
    rfl

/-- A reading guarded by the bytes its kind does not use. -/
theorem guarded_bad {c big : Prop} [Decidable c] {f : Finding} (h : c ∨ big) (hf : big → f = .refuse .badArg) :
    (if c then .refuse .badArg else f) = Finding.refuse .badArg := by
  split
  next => rfl
  next hc => exact hf (h.resolve_left hc)

/-- READ has no kind above 11 (R181). -/
theorem find_of_large {p : Port} {kind x y z : Byte} (h : 11 < kind.toNat) : s.find p kind x y z = .refuse .badArg := by
  unfold State.find
  split
  iterate 12 next hk => omega
  next => rfl

/-- A bad selector finds nothing. -/
theorem find_bad {p : Port} {kind x y z : Byte} (h : badSelector p kind x y z = true) :
    s.find p kind x y z = .refuse .badArg := by
  by_cases hlarge : 11 < kind.toNat
  · exact find_of_large hlarge
  unfold badSelector at h
  unfold State.find
  generalize kind.toNat = k at h hlarge ⊢
  rw [not_lt] at hlarge
  interval_cases k
  · exact guarded_bad (by simpa [or_assoc] using h) fun hz => if_pos hz
  · refine guarded_bad (big := z = 0x00 ∨ 24 < z.toNat) (by simpa [or_assoc] using h) fun hz => if_pos ?_
    simpa [toNat_zero_iff] using hz
  · refine guarded_bad (big := z = 0x00 ∨ 16 < z.toNat) (by simpa [or_assoc] using h) fun hz => if_pos ?_
    simpa [toNat_zero_iff] using hz
  · exact guarded_bad (big := 4095 < num2 y z) (by simpa [num2] using h) fun hz => if_pos hz
  · exact if_pos (by rw [serialOk_num3 (by simpa using h)]; rfl)
  · exact if_pos (by simpa [refOf, num2] using h)
  · exact guarded_bad (by simpa [or_assoc] using h) fun hz => if_pos hz
  · exact guarded_bad (by simpa [or_assoc] using h) fun hz => if_pos hz
  · refine guarded_bad (big := 1 < x.toNat ∨ 31 < y.toNat) ?_ fun hz => findSlot_bad hz
    have hbad : 1 < x.toNat ∨ 31 < y.toNat ∨ z ≠ 0x00 := of_decide_eq_true h
    tauto
  · refine guarded_bad (big := 2 < x.toNat) ?_ fun hz => findReport_bad hz
    simpa [or_comm, or_left_comm] using h
  · obtain ⟨rfl, hbad⟩ := of_decide_eq_true h
    exact findSettlement_bad hbad
  · exact absurd h Bool.false_ne_true

-- What a good selector finds

theorem rackOf_eq (r : Rack) : rackOf (match r with | .a => 0x00 | .b => 0x01) = some r := by cases r <;> rfl

section
variable {p : Port}

theorem find_language {i : Byte} (h : i.toNat ≤ 31) :
    s.find p 0x00 0 0 i = .reservable ((s.language i.toNat).bytes i.toNat) (.language i.toNat) 0 :=
  show s.findLanguage i.toNat = _ from if_neg (by omega)

theorem find_channel {c : Byte} (h1 : 1 ≤ c.toNat) (h24 : c.toNat ≤ 24) :
    s.find p 0x01 0 0 c = .reservable ((s.channel c.toNat).bytes c.toNat) (.channel c.toNat) 0 :=
  show s.findChannel c.toNat = _ from if_neg (by simp; omega)

theorem find_booth {b : Byte} (h1 : 1 ≤ b.toNat) (h16 : b.toNat ≤ 16) :
    s.find p 0x02 0 0 b =
      { Finding.reservable
          ((s.booth b.toNat).bytes b.toNat ((s.port p).presenceOf b.toNat) ((s.port p).faultOf b.toNat))
          (.booth b.toNat) 0 with booth := some b.toNat } :=
  show s.findBooth p b.toNat = _ from if_neg (by simp; omega)

theorem find_receiver {hi lo : Byte} (h : hi.toNat * 256 + lo.toNat ≤ 4095) :
    s.find p 0x03 0 hi lo = match s.receiver (hi.toNat * 256 + lo.toNat) with
      | some v => .record (v.bytes (hi.toNat * 256 + lo.toNat))
      | none => .refuse .noRecord := by
  show s.findReceiver (hi.toNat * 256 + lo.toNat) = _
  rw [State.findReceiver, if_neg (by omega)]
  cases s.receiver (hi.toNat * 256 + lo.toNat) <;> rfl

theorem num3_eq (x y z : Byte) : num3 x y z = x.toNat * 65536 + y.toNat * 256 + z.toNat := by
  unfold num3 num2
  omega

theorem find_bySerial {x y z : Byte} (h1 : 1 ≤ x.toNat * 65536 + y.toNat * 256 + z.toNat)
    (htop : x.toNat * 65536 + y.toNat * 256 + z.toNat ≤ 16777214) :
    s.find p 0x04 x y z = match s.bySerial (x.toNat * 65536 + y.toNat * 256 + z.toNat) with
      | some (i, v) => .record (v.bytes i)
      | none => .refuse .noRecord := by
  have hok : serialOk (x.toNat * 65536 + y.toNat * 256 + z.toNat) = true := by
    simp only [serialOk, Config.topSerial, Bool.and_eq_true]
    exact ⟨decide_eq_true h1, decide_eq_true htop⟩
  show s.findBySerial (num3 x y z) = _
  rw [num3_eq, State.findBySerial, if_neg (by rw [hok]; decide)]
  cases s.bySerial (x.toNat * 65536 + y.toNat * 256 + z.toNat) <;> rfl

theorem find_account (hi lo g : Byte) :
    s.find p 0x05 hi lo g = s.findAccount ⟨hi.toNat * 256 + lo.toNat, g.toNat⟩ := rfl

theorem find_tariff {k : Byte} (h : k.toNat ≤ 7) :
    s.find p 0x06 0 0 k = .reservable (byte1 k.toNat ++ (s.tariff k.toNat).bytes) (.tariff k.toNat) 0 :=
  show s.findTariff k.toNat = _ from if_neg (by omega)

theorem find_filter {k : Byte} (h : k.toNat ≤ 7) :
    s.find p 0x07 0 0 k = .record ((s.filter k.toNat).bytes k.toNat) :=
  show s.findFilter k.toNat = _ from if_neg (by omega)

theorem find_slot (r : Rack) {n : Byte} (h : n.toNat ≤ 31) :
    s.find p 0x08 (match r with | .a => 0x00 | .b => 0x01) n 0 = .record ((s.slot r n.toNat).bytes r n.toNat) := by
  show s.findSlot _ n = _
  rw [State.findSlot, rackOf_eq]
  exact if_neg (by omega)

/-- From a desk port the selector of a settlement is ignored (R181). -/
theorem find_settlement_desk (r : Rack) (x y z : Byte) :
    s.find (deskOf r) 0x0A x y z = match s.buffer r with
      | some v => .record v.bytes
      | none => .refuse (if s.rackFitted r then .noRecord else .wrongState) := by
  cases r <;> rfl

theorem find_settlement_ops (r : Rack) :
    s.find .ops 0x0A (match r with | .a => 0x00 | .b => 0x01) 0 0 = match s.buffer r with
      | some v => .record v.bytes
      | none => .refuse .noRecord := by
  cases r <;> rfl

end

theorem findAccount_settled {ref : AccountRef} {v : Settlement} (h : ref.index ≤ 1023) (hv : s.settledBuffer ref = some v) :
    s.findAccount ref = .record (byte1 2 ++ v.bytes) := by
  rw [State.findAccount, if_neg (by omega), hv]

theorem findAccount_unsettled {ref : AccountRef} (h : ref.index ≤ 1023) (hnone : s.settledBuffer ref = none) :
    s.findAccount ref =
      match s.openAccount ref with
      | some o => .reservable (o.bytes ref) (.account ref.index) ref.generation
      | none => .refuse .noRecord := by
  have hbound : ¬ 1023 < ref.index := by omega
  cases hopen : s.openAccount ref <;> simp only [State.findAccount, if_neg hbound, hnone, hopen]

theorem findAccount_booth {ref : AccountRef} : (s.findAccount ref).booth = none := by
  unfold State.findAccount
  repeat' split
  all_goals rfl

/-- The settlement buffers are looked through in their order. -/
theorem settledBuffer_eq (s : State) (ref : AccountRef) :
    s.settledBuffer ref =
      (s.bufferA.filter fun v => v.account = ref).or (s.bufferB.filter fun v => v.account = ref) := by
  unfold State.settledBuffer
  rw [List.findSome?_cons, List.findSome?_cons]
  cases s.bufferA.filter fun v => v.account = ref with
  | some v => rfl
  | none => cases s.bufferB.filter fun v => v.account = ref <;> rfl

theorem filter_of_held {buffer : Option Settlement} {ref : AccountRef} {v : Settlement} (h : buffer = some v)
    (hv : v.account = ref) : (buffer.filter fun v => v.account = ref) = some v := by
  rw [h, Option.filter_some, if_pos (by simpa using hv)]

theorem filter_of_not_held {buffer : Option Settlement} {ref : AccountRef}
    (h : ∀ v, buffer = some v → v.account ≠ ref) : (buffer.filter fun v => v.account = ref) = none := by
  cases buffer with
  | none => rfl
  | some w => rw [Option.filter_some, if_neg (by simpa using h w rfl)]

theorem settledBuffer_a {ref : AccountRef} {v : Settlement} (ha : s.bufferA = some v) (hv : v.account = ref) :
    s.settledBuffer ref = some v := by
  rw [settledBuffer_eq, filter_of_held ha hv]
  rfl

theorem settledBuffer_b {ref : AccountRef} {v : Settlement} (hb : s.bufferB = some v) (hv : v.account = ref)
    (ha : ∀ w, s.bufferA = some w → w.account ≠ ref) : s.settledBuffer ref = some v := by
  rw [settledBuffer_eq, filter_of_not_held ha, filter_of_held hb hv]
  rfl

theorem settledBuffer_none {ref : AccountRef}
    (h : ∀ v, s.bufferA = some v ∨ s.bufferB = some v → v.account ≠ ref) : s.settledBuffer ref = none := by
  rw [settledBuffer_eq, filter_of_not_held fun v hv => h v (.inl hv), filter_of_not_held fun v hv => h v (.inr hv)]
  rfl

-- READ (R181)

theorem exec_read (s : State) (p : Port) (tag : Byte) (payload : List Byte) :
    exec (.read p tag payload) s =
      .next (s.command p tag CommandName.read.code payload fun s => s.answer .read p payload (doRead p payload)) := rfl

theorem read_permitted (p : Port) : CommandName.read.permitted p = true := rfl

theorem doRead_eq {p : Port} {kind x y z : Byte} {f : Finding} (hf : s.find p kind x y z = f) (hb : f.booth = none) :
    doRead p [kind, x, y, z] s = (s, f.reply) := by
  simp only [doRead, hf, State.afterFinding, hb]

/-- A read that finds no booth is answered with its finding and changes nothing. -/
theorem read_answers {p : Port} {tag kind x y z : Byte} {f : Finding} (ht : s.Takes p)
    (hf : s.find p kind x y z = f) (hb : f.booth = none) :
    Answers (.read p tag [kind, x, y, z]) s p tag 0x02 f.reply :=
  answers_own (name := .read) s (exec_read s p tag _) ht (read_permitted p) rfl (doRead_eq hf hb)

-- A read of a booth (R100, R101)

theorem port_takeLatches (s : State) (p x : Port) (b : Nat) :
    (s.takeLatches p b).port x =
      if x = p then (s.port p).setLatches b (s.booth b).present (decide ((s.booth b).link.state = .faultWait))
      else s.port x := port_setPort s p x _

theorem hand_withLatches (q : PortState) (presence faults : Tab Bool) (tag code : Byte) (r : Reply) :
    (q.withLatches presence faults).hand tag code r = (q.hand tag code r).withLatches presence faults :=
  chooseFrame_withLatches { q with inHand := some ⟨tag, code, r, q.notices.length, false⟩ } presence faults

/-- A reply in hand leaves the latches. -/
theorem latches_hand (q : PortState) (tag code : Byte) (r : Reply) :
    (q.hand tag code r).presence = q.presence ∧ (q.hand tag code r).faults = q.faults := by
  have h : q.hand tag code r = (q.hand tag code r).withLatches q.presence q.faults :=
    hand_withLatches q q.presence q.faults tag code r
  constructor
  · rw [h]
    rfl
  · rw [h]
    rfl

/-- A port `t` that took the latches of booth `b` from the moment `s`, after a reply. -/
theorem latches_taken {q u : PortState} {b : Nat} {presence fault : Bool} {v : Option Reservation}
    {tag code : Byte} {r : Reply} (h : u = ({ q.setLatches b presence fault with reservation := v }).hand tag code r) (y : Nat) :
    u.presenceOf y = (if y = b then presence else q.presenceOf y) ∧
      u.faultOf y = if y = b then fault else q.faultOf y := by
  obtain ⟨hpresence, hfaults⟩ := latches_hand ({ q.setLatches b presence fault with reservation := v }) tag code r
  rw [PortState.presenceOf, PortState.faultOf, h, hpresence, hfaults]
  exact ⟨tabGet_tabSet .., tabGet_tabSet ..⟩

/-- The reply of a read of a booth, formed before its latches are taken (R100, R101). -/
def boothReply (s : State) (p : Port) (b : Byte) : Reply :=
  ⟨.ok, (s.booth b.toNat).bytes b.toNat ((s.port p).presenceOf b.toNat) ((s.port p).faultOf b.toNat)⟩

theorem doRead_booth {p : Port} {b : Byte} (h1 : 1 ≤ b.toNat) (h16 : b.toNat ≤ 16) :
    doRead p [0x02, 0, 0, b] s = (s.takeLatches p b.toNat, boothReply s p b) := by
  simp only [doRead, find_booth h1 h16, State.afterFinding]
  rfl

/-- Settles O33: the findings of each kind (`read_answers`); a booth's latches are taken after the reply is formed. -/
theorem readAnswers : Obligations.ReadAnswers := by
  refine ⟨fun s p tag kind x y z ht => ?_, fun s p tag ht => ?_, fun s p tag hi lo g ht hindex => ?_⟩
  · intro r hr
    rw [firstFailure_cons, firstFailure_nil] at hr
    split at hr
    · next hbad =>
      obtain rfl := Option.some.inj hr
      exact read_answers (f := .refuse .badArg) ht (find_bad (by simpa using hbad)) rfl
    · cases hr
  · refine ⟨fun i hi => read_answers ht (find_language hi) rfl, fun c h1 h24 => read_answers ht (find_channel h1 h24) rfl,
      fun hi lo hindex => ?_, fun k hk => read_answers ht (find_tariff hk) rfl,
      fun k hk => read_answers ht (find_filter hk) rfl,
      fun n hn => ⟨read_answers ht (find_slot .a hn) rfl, read_answers ht (find_slot .b hn) rfl⟩,
      fun x y z h1 htop => ?_, read_answers ht rfl rfl, read_answers ht rfl rfl, read_answers ht rfl rfl,
      fun r hp x y z => ?_, fun hp r => ?_, fun x y z => read_answers ht rfl rfl, fun b h1 h16 => ?_⟩
    · have hfound := find_receiver (s := s) (p := p) hindex
      cases hv : s.receiver (hi.toNat * 256 + lo.toNat) with
      | none => exact read_answers ht (hfound.trans (by rw [hv])) rfl
      | some v => exact read_answers ht (hfound.trans (by rw [hv])) rfl
    · have hfound := find_bySerial (s := s) (p := p) h1 htop
      cases hv : s.bySerial (x.toNat * 65536 + y.toNat * 256 + z.toNat) with
      | none => exact read_answers ht (hfound.trans (by rw [hv])) rfl
      | some v => exact read_answers ht (hfound.trans (by rw [hv])) rfl
    · subst hp
      have hfound := find_settlement_desk (s := s) r x y z
      cases hv : s.buffer r with
      | some v => exact read_answers ht (hfound.trans (by rw [hv])) rfl
      | none =>
        dsimp only
        split
        next hfit => exact read_answers (f := .refuse .noRecord) ht (hfound.trans (by rw [hv, if_pos hfit])) rfl
        next hfit => exact read_answers (f := .refuse .wrongState) ht (hfound.trans (by rw [hv, if_neg hfit])) rfl
    · subst hp
      have hfound := find_settlement_ops (s := s) r
      cases hv : s.buffer r with
      | some v => exact read_answers ht (hfound.trans (by rw [hv])) rfl
      | none => exact read_answers ht (hfound.trans (by rw [hv])) rfl
    · have hport := (port_after (s.takeLatches p b.toNat) p p tag 0x02 (boothReply s p b)).trans (if_pos rfl)
      rw [port_takeLatches, if_pos rfl] at hport
      refine ⟨_, (exec_read s p tag _).trans (client_next (name := .read) ht (read_permitted p) rfl
        (doRead_booth h1 h16)), ⟨_, hport, rfl⟩, ?_, ?_, fun y hy => ?_, fun x hx => ?_,
        (onlyPorts_setPort s p _).trans (onlyPorts_after _ _ _ _ _)⟩
      · exact (latches_taken hport b.toNat).1.trans (if_pos rfl)
      · exact (latches_taken hport b.toNat).2.trans (if_pos rfl)
      · exact ⟨(latches_taken hport y).1.trans (if_neg hy), (latches_taken hport y).2.trans (if_neg hy)⟩
      · rw [port_after, if_neg hx, port_takeLatches, if_neg hx]
  · intro ref
    obtain ⟨t, hexec, hanswered, hframe⟩ :=
      read_answers (tag := tag) ht (find_account hi lo g) (findAccount_booth (ref := ref))
    refine ⟨t, _, hexec, hanswered, fun v ha hv => ?_, fun v hb hv ha => ?_, fun hnone => ?_, hframe⟩
    · rw [findAccount_settled hindex (settledBuffer_a ha hv)]
      rfl
    · rw [findAccount_settled hindex (settledBuffer_b hb hv ha)]
      rfl
    · rw [findAccount_unsettled hindex (settledBuffer_none hnone), State.openAccount]
      cases (s.account ref.index).account with
      | none => simp only [ite_self]; rfl
      | some o =>
        by_cases hgeneration : (s.account ref.index).generation = ref.generation
        · simp only [if_pos hgeneration]
          rfl
        · simp only [if_neg hgeneration]
          rfl

-- READ_RESERVE (R188)

theorem exec_readReserve (s : State) (p : Port) (tag : Byte) (payload : List Byte) :
    exec (.readReserve p tag payload) s =
      .next (s.command p tag CommandName.readReserve.code payload fun s =>
        s.answer .readReserve p payload (doReadReserve p payload)) := rfl

theorem readReserve_permitted (p : Port) : CommandName.readReserve.permitted p = true := rfl

/-- The reservable kinds are LANGUAGE, CHANNEL, BOOTH, ACCOUNT and TARIFF (R187). -/
theorem reservableKind_iff (kind : Byte) : reservableKind kind = true ↔ kind.toNat ∈ [0, 1, 2, 5, 6] := by
  simp only [reservableKind, List.contains_iff_mem, List.mem_cons, List.not_mem_nil, or_false, BitVec.toNat_eq]
  rfl

/-- A READ_RESERVE whose finding reserves nothing is answered with it and changes nothing. -/
theorem readReserve_answers {p : Port} {tag kind x y z : Byte} {f : Finding} (ht : s.Takes p)
    (hkind : reservableKind kind = true) (hf : s.find p kind x y z = f) (hb : f.booth = none)
    (hnone : f.reserves = none) : Answers (.readReserve p tag [kind, x, y, z]) s p tag 0x03 f.reply :=
  answers_own (name := .readReserve) s (exec_readReserve s p tag _) ht (readReserve_permitted p) rfl (by
    simp only [doReadReserve, hkind, hf, State.afterFinding, hb, State.reserve, hnone]
    rfl)

/-- A READ_RESERVE whose finding reserves a record other than a booth sets the port's reservation on it. -/
theorem readReserve_reserves {p : Port} {kind x y z : Byte} (tag : Byte) {fields : List Byte} {record : RecordName}
    {generation : Nat} (ht : s.Takes p) (hkind : reservableKind kind = true)
    (hf : s.find p kind x y z = .reservable fields record generation) :
    ∃ t, exec (.readReserve p tag [kind, x, y, z]) s = .next t ∧
      t.port p = { s.port p with reservation := some ⟨record, generation⟩ }.hand tag 0x03 ⟨.ok, fields⟩ ∧
      (∀ x, x ≠ p → t.port x = s.port x) ∧ s.OnlyPorts t := by
  have hdo : doReadReserve p [kind, x, y, z] s =
      (s.setPort p { s.port p with reservation := some ⟨record, generation⟩ }, ⟨.ok, fields⟩) := by
    simp only [doReadReserve, hkind, hf]
    rfl
  refine ⟨_, (exec_readReserve s p tag _).trans (client_next (name := .readReserve) ht (readReserve_permitted p) rfl hdo),
    ?_, fun x hx => ?_, (onlyPorts_setPort s p _).trans (onlyPorts_after _ _ _ _ _)⟩
  · rw [port_after, if_pos rfl, port_setPort, if_pos rfl]
    rfl
  · rw [port_after, if_neg hx, port_setPort, if_neg hx]

/-- A booth reserved at a port, whose latches of it take the values of the moment. -/
def State.reserveBooth (s : State) (p : Port) (b : Nat) : State :=
  (s.takeLatches p b).setPort p { (s.takeLatches p b).port p with reservation := some ⟨.booth b, 0⟩ }

theorem port_reserveBooth (s : State) (p x : Port) (b : Nat) :
    (s.reserveBooth p b).port x =
      if x = p then
        { (s.port p).setLatches b (s.booth b).present (decide ((s.booth b).link.state = .faultWait)) with
          reservation := some ⟨.booth b, 0⟩ }
      else s.port x := by
  rw [State.reserveBooth, port_setPort, port_takeLatches, if_pos rfl]
  split
  next => rfl
  next hx => rw [port_takeLatches, if_neg hx]

theorem doReadReserve_booth {p : Port} {b : Byte} (h1 : 1 ≤ b.toNat) (h16 : b.toNat ≤ 16) :
    doReadReserve p [0x02, 0, 0, b] s =
      (s.reserveBooth p b.toNat, boothReply s p b) := by
  have hkind : reservableKind 0x02 = true := rfl
  simp only [doReadReserve, hkind, find_booth h1 h16, State.afterFinding]
  rfl

/-- Settles O34: the finding is READ's; what it reserves becomes the port's reservation. -/
theorem readReserveReserves : Obligations.ReadReserveReserves := by
  refine ⟨fun s p tag kind x y z ht => ?_, fun s p tag hi lo g ht hindex => ?_, fun s p tag ht => ?_⟩
  · intro r hr
    rw [firstFailure_cons, firstFailure_nil] at hr
    split at hr
    · next hbad =>
      obtain rfl := Option.some.inj hr
      by_cases hkind : reservableKind kind = true
      · have hselector : badSelector p kind x y z = true :=
          (of_decide_eq_true hbad).resolve_left fun h => h ((reservableKind_iff kind).1 hkind)
        exact readReserve_answers (f := .refuse .badArg) ht hkind (find_bad hselector) rfl rfl
      · exact answers_own (name := .readReserve) s (exec_readReserve s p tag _) ht (readReserve_permitted p) rfl
          (if_pos (by simpa using hkind))
    · cases hr
  · refine ⟨fun v ha hv => ?_, fun v hb hv ha => ?_, fun hnone hopen => ?_⟩
    · exact readReserve_answers ht rfl ((find_account hi lo g).trans (findAccount_settled hindex (settledBuffer_a ha hv)))
        rfl rfl
    · exact readReserve_answers ht rfl
        ((find_account hi lo g).trans (findAccount_settled hindex (settledBuffer_b hb hv ha))) rfl rfl
    · refine readReserve_answers (f := .refuse .noRecord) ht rfl ?_ rfl rfl
      rw [find_account, findAccount_unsettled hindex (settledBuffer_none hnone), State.openAccount]
      split
      next hsome =>
        split at hsome
        next hgeneration => exact absurd hopen (by rw [hsome]; simp [hgeneration])
        next => cases hsome
      next => rfl
  · refine ⟨fun i hi => readReserve_reserves tag ht rfl (find_language hi),
      fun c h1 h24 => readReserve_reserves tag ht rfl (find_channel h1 h24),
      fun k hk => readReserve_reserves tag ht rfl (find_tariff hk), fun hi lo g o hindex ho hnone => ?_, fun b h1 h16 => ?_⟩
    · refine readReserve_reserves tag ht rfl ?_
      rw [find_account, findAccount_unsettled hindex (settledBuffer_none hnone), State.openAccount, ho, if_pos rfl]
    · have hport := (port_after (s.reserveBooth p b.toNat) p p tag 0x03 (boothReply s p b)).trans (if_pos rfl)
      rw [port_reserveBooth, if_pos rfl] at hport
      refine ⟨_, (exec_readReserve s p tag _).trans (client_next (name := .readReserve) ht (readReserve_permitted p) rfl
        (doReadReserve_booth h1 h16)), ⟨_, hport, rfl⟩, ?_, ?_, fun y hy => ?_, fun x hx => ?_,
        ((onlyPorts_setPort s p _).trans (onlyPorts_setPort _ p _)).trans (onlyPorts_after _ _ _ _ _)⟩
      · exact (latches_taken hport b.toNat).1.trans (if_pos rfl)
      · exact (latches_taken hport b.toNat).2.trans (if_pos rfl)
      · exact ⟨(latches_taken hport y).1.trans (if_neg hy), (latches_taken hport y).2.trans (if_neg hy)⟩
      · rw [port_after, if_neg hx, port_reserveBooth, if_neg hx]

end Sys2Proof.Machine
end

section
/-!
PROOFS. The checks of every command before its own rule (R177, R204), settled.
-/
namespace Sys2Proof.Machine

variable {s : State}

/-- A CODE names the command that has it. -/
theorem code_of_commandOf {code : Byte} {name : CommandName} (h : commandOf code = some name) : name.code = code := by
  simpa using List.find?_some h

theorem commandOf_code (name : CommandName) : commandOf name.code = some name := by cases name <;> rfl

/-- Each command's own row is the command's CODE with the command's own rule. -/
theorem exec_commandRow (s : State) (name : CommandName) (p : Port) (tag : Byte) (payload : List Byte) :
    exec (commandRow s.storeFailure name p tag payload) s =
      .next (s.command p tag name.code payload fun s => s.answer name p payload (perform name p payload)) := by
  cases name <;> rfl

/-- A command that reaches a port with no command in hand, and whose rule refuses it, is answered with the result alone. -/
theorem command_refused {p : Port} {code : Byte} {own : State → State × Reply} {r : Result} (tag : Byte)
    (payload : List Byte) (hr : s.run ≠ .off) (hi : (s.port p).inHand = none) (hown : own s = refuse s r) :
    s.command p tag code payload own = s.after p tag code (.bare r) := by
  rw [State.command, if_neg hr, if_pos (by rw [hi]; rfl), take_eq, hown]
  rfl

theorem perform_unknown {p : Port} {code : Byte} (payload : List Byte) (h : commandOf code = none) :
    s.perform p code payload = s.answerUnknown := by
  rw [State.perform, h]

theorem perform_named {p : Port} {code : Byte} {name : CommandName} (payload : List Byte) (h : commandOf code = some name) :
    s.perform p code payload = s.answer name p payload (perform name p payload) := by
  rw [State.perform, h]

/-- In INSTALL every command but those of the operations port named there is denied (R204). -/
theorem answer_install {name : CommandName} {p : Port} {payload : List Byte} {own : State → State × Reply}
    (hr : s.run = .install) (hin : name.inInstall p = false) : s.answer name p payload own = refuse s .denied := by
  rw [State.answer, if_pos (by simp [hr, hin])]

theorem inInstall_iff (name : CommandName) (p : Port) :
    name.inInstall p = true ↔ p = .ops ∧ name ∈ [.status, .profileRead, .profileWrite] := by
  cases name <;> simp [CommandName.inInstall]

theorem inInstall_false {name : CommandName} {p : Port} (h : p = .ops → name ∉ [.status, .profileRead, .profileWrite]) :
    name.inInstall p = false := by
  rw [Bool.eq_false_iff, Ne, inInstall_iff]
  exact fun ⟨hp, hname⟩ => h hp hname

/-- In INSTALL the feed link rests, and the ports alone are written. -/
theorem after_install (hr : s.run = .install) (p : Port) (tag code : Byte) (r : Reply) :
    s.after p tag code r =
      { s with
        opsPort := (s.after p tag code r).opsPort, deskAPort := (s.after p tag code r).deskAPort,
        deskBPort := (s.after p tag code r).deskBPort } := by
  unfold State.after
  rw [feedWork_install (by simpa using hr)]
  cases p <;> rfl

/-- The first check of a command that is not permitted or has not its length (R177). -/
theorem answer_denied {name : CommandName} {p : Port} {payload : List Byte} {own : State → State × Reply}
    (hr : s.run = .hall) (hp : name.permitted p = false) : s.answer name p payload own = refuse s .denied := by
  rw [answer_refused s hr (.inl hp), hp]
  rfl

theorem answer_badLength {name : CommandName} {p : Port} {payload : List Byte} {own : State → State × Reply}
    (hr : s.run = .hall) (hp : name.permitted p = true) (hl : name.lengthOk payload.length = false) :
    s.answer name p payload own = refuse s .badArg := by
  rw [answer_refused s hr (.inr hl), hp]
  rfl

/-- Settles O37: every row is its CODE with its rule (`exec_commandRow`), which is refused by the check that fails. -/
theorem refusedCommandsChangeNothing : Obligations.RefusedCommandsChangeNothing := by
  have hanswered (s : State) (p : Port) (tag code : Byte) (r : Result) :
      Answered s (s.after p tag code (.bare r)) p tag code ⟨r, []⟩ [] toNone := answered_after (Told.refl s)
  refine ⟨fun s p tag code payload ht => ?_, fun s p tag code payload hr hi hcode => ?_,
    fun s p tag payload name ht => ?_, fun s p tag payload name hr hi hname => ?_⟩
  · have hrun : s.run ≠ .off := by rw [ht.1]; decide
    have hrefused {r : Result} (hown : s.perform p code payload = refuse s r) :
        exec (.unknownCommand p tag code payload) s = .next (s.after p tag code (.bare r)) :=
      congrArg _ (command_refused tag payload hrun ht.2 hown)
    refine ⟨fun hnone => ⟨_, hrefused ?_, hanswered _ _ _ _ _, after_frame ..⟩,
      fun name hname hp => ⟨_, hrefused ?_, hanswered _ _ _ _ _, after_frame ..⟩,
      fun name hname hp hl => ⟨_, hrefused ?_, hanswered _ _ _ _ _, after_frame ..⟩⟩
    · rw [perform_unknown payload hnone, State.answerUnknown, if_neg (by rw [ht.1]; decide)]
    · rw [perform_named payload hname, answer_denied ht.1 hp]
    · rw [perform_named payload hname, answer_badLength ht.1 hp hl]
  · refine ⟨_, congrArg Host.Outcome.next (command_refused tag payload (by rw [hr]; decide) hi ?_),
      hanswered _ _ _ _ _, after_install hr ..⟩
    cases hname : commandOf code with
    | none => rw [perform_unknown payload hname, State.answerUnknown, if_pos hr]
    | some name =>
      rw [perform_named payload hname]
      refine answer_install hr (inInstall_false fun hp hin => hcode hp ?_)
      rw [← code_of_commandOf hname]
      obtain rfl | rfl | rfl : name = .status ∨ name = .profileRead ∨ name = .profileWrite := by simpa using hin
      all_goals decide
  · have hrun : s.run ≠ .off := by rw [ht.1]; decide
    have hrefused {r : Result} (hown : s.answer name p payload (perform name p payload) = refuse s r) :
        exec (commandRow s.storeFailure name p tag payload) s = .next (s.after p tag name.code (.bare r)) :=
      (exec_commandRow s name p tag payload).trans (congrArg _ (command_refused tag payload hrun ht.2 hown))
    exact ⟨fun hp => ⟨_, hrefused (answer_denied ht.1 hp), hanswered _ _ _ _ _, after_frame ..⟩,
      fun hp hl => ⟨_, hrefused (answer_badLength ht.1 hp hl), hanswered _ _ _ _ _, after_frame ..⟩⟩
  · exact ⟨_, (exec_commandRow s name p tag payload).trans (congrArg _ (command_refused tag payload (by rw [hr]; decide) hi
      (answer_install hr (inInstall_false hname)))), hanswered _ _ _ _ _, after_install hr ..⟩

end Sys2Proof.Machine
end

section
/-!
PROOFS. The notice queues and the choice of the next frame (R176, R183 to R185), settled.
-/
namespace Sys2Proof.Machine

variable {s : State}

-- The queue (R183, R184)

/-- While a frame is being sent a notice only joins the queue. -/
theorem post_sending {q : PortState} {n : Notice} (h : q.sending ≠ none) : q.post n = q.enqueue n := by
  obtain ⟨frame, hframe⟩ := Option.ne_none_iff_exists'.1 h
  have hsame : (q.enqueue n).sending = some frame := by
    unfold PortState.enqueue
    split <;> exact hframe
  unfold PortState.post PortState.chooseFrame
  rw [hsame]

/-- The port with the last 16 of `all` in its queue, the others discarded (R184). -/
def PortState.keepLast (q : PortState) (all : List Notice) : PortState :=
  { q with
    notices := all.drop (all.length - 16)
    overflow := q.overflow || decide (16 < all.length)
    inHand := q.inHand.map fun h => { h with ahead := h.ahead - (all.length - 16) } }

theorem keepLast_notices {q : PortState} (h : q.notices.length ≤ 16) : q.keepLast q.notices = q := by
  have hzero : q.notices.length - 16 = 0 := by omega
  have hmap : (q.inHand.map fun h : InHand => { h with ahead := h.ahead - 0 }) = q.inHand := by cases q.inHand <;> rfl
  have hlow : ¬ 16 < q.notices.length := by omega
  unfold PortState.keepLast
  rw [hzero, hmap, decide_eq_false hlow, Bool.or_false]
  rfl

theorem enqueue_eq {q : PortState} (n : Notice) (h : q.notices.length ≤ 16) :
    q.enqueue n = q.keepLast (q.notices ++ [n]) := by
  unfold PortState.enqueue PortState.keepLast
  have hlength : (q.notices ++ [n]).length = q.notices.length + 1 := by simp
  by_cases hroom : q.notices.length < Config.noticeLimit
  · have hlow : q.notices.length < 16 := hroom
    have hmap : (q.inHand.map fun h : InHand => { h with ahead := h.ahead - 0 }) = q.inHand := by cases q.inHand <;> rfl
    rw [if_pos hroom, hlength, show q.notices.length + 1 - 16 = 0 by omega, hmap,
      decide_eq_false (show ¬ 16 < q.notices.length + 1 by omega), Bool.or_false]
    rfl
  · have hfull : q.notices.length = 16 := le_antisymm h (not_lt.1 hroom)
    have htail : (q.notices ++ [n]).drop 1 = q.notices.tail ++ [n] := by
      cases hn : q.notices with
      | nil => rw [hn] at hfull; cases hfull
      | cons first rest => rfl
    rw [if_neg hroom, hlength, hfull, htail]
    simp

theorem keepLast_keepLast (q : PortState) (all more : List Notice) :
    (q.keepLast all).keepLast ((q.keepLast all).notices ++ more) = q.keepLast (all ++ more) := by
  have hdrop : all.drop (all.length - 16) ++ more = (all ++ more).drop (all.length - 16) := by
    rw [List.drop_append_of_le_length (by omega)]
  unfold PortState.keepLast
  simp only [hdrop, List.drop_drop, List.length_drop, List.length_append, Option.map_map, Function.comp_def]
  have hcount : all.length - 16 + (all.length + more.length - (all.length - 16) - 16) = all.length + more.length - 16 := by
    omega
  have hahead (a : Nat) : a - (all.length - 16) - (all.length + more.length - (all.length - 16) - 16) =
      a - (all.length + more.length - 16) := by omega
  have hoverflow : (decide (16 < all.length) || decide (16 < all.length + more.length - (all.length - 16))) =
      decide (16 < all.length + more.length) := by
    rw [← Bool.decide_or]
    exact decide_eq_decide.2 (by omega)
  rw [hcount, Bool.or_assoc, hoverflow]
  simp only [hahead]

/-- While a frame is being sent the notices join the queue, which keeps the last 16. -/
theorem told_sending {q : PortState} (notices : List Notice) (h : q.sending ≠ none) (hq : q.notices.length ≤ 16) :
    q.told notices = q.keepLast (q.notices ++ notices) := by
  induction notices generalizing q with
  | nil => rw [List.append_nil, keepLast_notices hq]; rfl
  | cons n rest ih =>
    have hpost : q.told (n :: rest) = (q.keepLast (q.notices ++ [n])).told rest := by
      rw [← enqueue_eq n hq, ← post_sending h]
      rfl
    have hbound : (q.keepLast (q.notices ++ [n])).notices.length ≤ 16 := by
      simp only [PortState.keepLast, List.length_drop]
      omega
    rw [hpost, ih (by exact h) hbound, keepLast_keepLast, List.append_assoc]
    rfl

-- The choice of the next frame (R185)

theorem told_idle {q : PortState} (n : Notice) (notices : List Notice) (hs : q.sending = none) (hi : q.inHand = none)
    (hn : q.notices = []) (hh : q.hold = false) :
    q.told (n :: notices) = { q with sending := some (.notice n q.overflow), overflow := false }.told notices := by
  have hpost : q.post n = { q with sending := some (.notice n q.overflow), overflow := false } := by
    unfold PortState.post PortState.enqueue
    rw [hn, if_pos (by decide)]
    simp [PortState.chooseFrame, PortState.sendNotice, hs, hi, hh]
  show (q.post n).told notices = _
  rw [hpost]

theorem hand_sending {q : PortState} (tag code : Byte) (r : Reply) (h : q.sending ≠ none) :
    q.hand tag code r = { q with inHand := some ⟨tag, code, r, q.notices.length, false⟩ } := by
  obtain ⟨frame, hframe⟩ := Option.ne_none_iff_exists'.1 h
  unfold PortState.hand PortState.chooseFrame
  simp only [hframe]

theorem hand_idle {q : PortState} (tag code : Byte) (r : Reply) (hs : q.sending = none)
    (h : q.notices = [] ∨ q.hold = true) :
    q.hand tag code r =
      { q with
        sending := some (.reply tag code r)
        inHand := some ⟨tag, code, r, q.notices.length, true⟩ } := by
  have hfirst : (decide (q.notices.length = 0) || q.hold) = true := by
    obtain h | h := h <;> simp [h]
  unfold PortState.hand PortState.chooseFrame
  simp only [hs]
  rw [if_neg (by decide), if_pos hfirst]
  rfl

/-- The choice of an idle transmitter, by its reply that waits. -/
def FrameChosen (q : PortState) (hold : Bool) (w : PortState) : Prop :=
  (∀ h, (q.inHand.filter fun h => !h.begun) = some h → h.ahead = 0 ∨ hold = true →
    w = { q with hold := hold, sending := some (.reply h.tag h.code h.reply), inHand := some { h with begun := true } }) ∧
  (∀ first rest, q.notices = first :: rest → hold = false →
    (∀ h, (q.inHand.filter fun h => !h.begun) = some h → h.ahead ≠ 0) →
    w = { q with
          hold := false, notices := rest, overflow := false, sending := some (.notice first q.overflow)
          inHand := q.inHand.map fun h => { h with ahead := h.ahead - 1 } }) ∧
  ((∀ h, (q.inHand.filter fun h => !h.begun) ≠ some h) → q.notices = [] ∨ hold = true →
    w = { q with hold := hold, sending := none })

/-- The transmitter of `q`, idle, with its hold input at a level. -/
def PortState.freed (q : PortState) (hold : Bool) : PortState := { q with hold := hold, sending := none }

theorem sendNotice_freed {q : PortState} {first : Notice} {rest : List Notice} (hn : q.notices = first :: rest) :
    (q.freed false).sendNotice =
      { q with
        hold := false, notices := rest, overflow := false, sending := some (.notice first q.overflow)
        inHand := q.inHand.map fun h => { h with ahead := h.ahead - 1 } } := by
  simp [PortState.sendNotice, PortState.freed, hn]

theorem sendNotice_nil {q : PortState} (hn : q.notices = []) (hold : Bool) : (q.freed hold).sendNotice = q.freed hold := by
  simp [PortState.sendNotice, PortState.freed, hn]

/-- A reply that waits is sent if no notice precedes it or the hold input is asserted; else the oldest notice is. -/
theorem chooseFrame_waiting {q : PortState} {h : InHand} (hold : Bool) (hh : q.inHand = some h) (hb : h.begun = false) :
    (q.freed hold).chooseFrame =
      if h.ahead = 0 ∨ hold = true then (q.freed hold).sendReply h else (q.freed hold).sendNotice := by
  simp [PortState.chooseFrame, PortState.freed, hh, hb]

/-- With no reply that waits the oldest notice is sent while the hold input is released. -/
theorem chooseFrame_none {q : PortState} (hold : Bool) (hh : ∀ h, q.inHand = some h → h.begun = true) :
    (q.freed hold).chooseFrame = if hold then q.freed hold else (q.freed hold).sendNotice := by
  cases hhand : q.inHand with
  | none => simp [PortState.chooseFrame, PortState.freed, hhand]
  | some h => simp [PortState.chooseFrame, PortState.freed, hhand, hh h hhand]

theorem frameChosen_chooseFrame (q : PortState) (hold : Bool) : FrameChosen q hold (q.freed hold).chooseFrame := by
  by_cases hwaits : ∃ h, q.inHand = some h ∧ h.begun = false
  · obtain ⟨h, hhand, hbegun⟩ := hwaits
    have hreply : (q.inHand.filter fun h => !h.begun) = some h := by simp [hhand, hbegun]
    rw [chooseFrame_waiting hold hhand hbegun]
    unfold FrameChosen
    rw [hreply]
    refine ⟨?_, fun first rest hn hfalse hahead => ?_, fun hnone => absurd rfl (hnone h)⟩
    · rintro _ ⟨⟩ hfirst
      rw [if_pos hfirst]
      rfl
    · subst hfalse
      rw [if_neg (by simpa using hahead h rfl), sendNotice_freed hn]
  · have hbegun (h : InHand) (hhand : q.inHand = some h) : h.begun = true := by
      cases hb : h.begun with
      | true => rfl
      | false => exact absurd ⟨h, hhand, hb⟩ hwaits
    have hreply : (q.inHand.filter fun h => !h.begun) = none := by
      cases hhand : q.inHand with
      | none => rfl
      | some h => simp [hbegun h hhand]
    rw [chooseFrame_none hold hbegun]
    unfold FrameChosen
    rw [hreply]
    refine ⟨fun h hh => (nomatch hh), fun first rest hn hfalse _ => ?_, fun _ hquiet => ?_⟩
    · subst hfalse
      exact sendNotice_freed hn
    · obtain hn | rfl := hquiet
      · rw [sendNotice_nil hn]
        exact ite_self _
      · rfl

theorem setHold_setPort (s : State) (p : Port) (hold : Bool) (q : PortState) :
    (s.setHold p hold).setPort p q = s.setPort p q := by cases p <;> rfl

theorem setPort_setPort (s : State) (p : Port) (q q' : PortState) :
    (s.setPort p q).setPort p q' = s.setPort p q' := by cases p <;> rfl

theorem port_setHold (s : State) (p : Port) (hold : Bool) : (s.setHold p hold).port p = { s.port p with hold := hold } := by
  rw [State.setHold, port_setPort, if_pos rfl]

/-- FRAME_SENT and HOLD_RELEASED act on a powered part alone. -/
theorem exec_frameSent {p : Port} (hold : Bool) (hr : s.run ≠ .off) :
    exec (.frameSent p hold) s = .next (((s.setHold p hold).endFrame p).choose p) :=
  congrArg Host.Outcome.next (if_neg hr)

theorem exec_holdReleased {p : Port} (hr : s.run ≠ .off) :
    exec (.holdReleased p) s = .next ((s.setHold p false).choose p) :=
  congrArg Host.Outcome.next (if_neg hr)

/-- At the end of a notice the transmitter is free. -/
theorem endFrame_notice {p : Port} {n : Notice} {overflow : Bool} (hold : Bool)
    (hs : (s.port p).sending = some (.notice n overflow)) :
    (s.setHold p hold).endFrame p = s.setPort p ((s.port p).freed hold) := by
  unfold State.endFrame
  simp only [port_setHold, hs, setHold_setPort]
  rfl

/-- At the end of a reply the transmitter is free, no command is in hand, and the next received one is taken. -/
theorem endFrame_reply {p : Port} {tag code : Byte} {r : Reply} (hold : Bool)
    (hs : (s.port p).sending = some (.reply tag code r)) :
    (s.setHold p hold).endFrame p =
      (s.setPort p { s.port p with hold := hold, sending := none, inHand := none }).takeNext p := by
  unfold State.endFrame
  simp only [port_setHold, hs, setHold_setPort]

theorem takeNext_none {p : Port} (h : (s.port p).received = []) : s.takeNext p = s := by
  unfold State.takeNext
  dsimp only
  rw [h]
  split
  next _ heq => cases heq
  next => rfl

theorem choose_setPort (p : Port) (q : PortState) : (s.setPort p q).choose p = s.setPort p q.chooseFrame := by
  rw [State.choose, port_setPort, if_pos rfl, setPort_setPort]

/-- Settles O40: the queue's law (`told_sending`), the reply's, and the choice (`frameChosen_chooseFrame`). -/
theorem nextFrameIsChosen : Obligations.NextFrameIsChosen := by
  refine ⟨fun q notices hs hq => told_sending notices hs hq, fun q n notices hs hi hn hh => told_idle n notices hs hi hn hh,
    fun q tag code r => ⟨fun hs => hand_sending tag code r hs, fun hs h => hand_idle tag code r hs h⟩,
    fun s p hold n overflow hr => ⟨fun hs => ?_, fun hs hh => ?_⟩, fun s p hold tag code r hr hs hreceived => ?_⟩
  · refine ⟨s.setPort p ((s.port p).freed hold).chooseFrame, ?_, ?_, ?_⟩
    · rw [exec_frameSent hold hr, endFrame_notice hold hs, choose_setPort]
    · rw [port_setPort, if_pos rfl]
      exact frameChosen_chooseFrame _ hold
    · rw [port_setPort, if_pos rfl]
  · have hfreed : (s.port p).freed false = { s.port p with hold := false } := by rw [PortState.freed, ← hs]
    refine ⟨s.setPort p ((s.port p).freed false).chooseFrame, ?_, ?_, ?_⟩
    · rw [exec_holdReleased hr, State.setHold, choose_setPort, hfreed]
    · rw [port_setPort, if_pos rfl, hh]
      exact frameChosen_chooseFrame _ false
    · rw [port_setPort, if_pos rfl]
  · rw [exec_frameSent hold hr, endFrame_reply hold hs, takeNext_none (by rw [port_setPort, if_pos rfl]; exact hreceived),
      choose_setPort]
    refine congrArg (fun q => Host.Outcome.next (s.setPort p q)) ?_
    rw [PortState.chooseFrame]
    cases hn : (s.port p).notices with
    | nil => cases hold <;> simp [PortState.sendNotice, hn]
    | cons first rest => cases hold <;> simp [PortState.sendNotice, hn]

end Sys2Proof.Machine
end

section
/-!
PROOFS. The framer of a port and the commands it receives (R171 to R176), settled.
-/
namespace Sys2Proof.Machine

-- The collection of a frame (R173, R175)

/-- The port whose framer collects a frame, `remaining` bytes to come. -/
def PortState.collect (q : PortState) (remaining : Nat) (stored : List Byte) (spoilt : Bool) : PortState :=
  { q with framer := .collecting remaining stored spoilt }

/-- The bytes of the received commands in a port's buffer. -/
def PortState.waiting (q : PortState) : Nat := (q.received.map List.length).sum

/-- The port after a frame: received, or discarded with the frame-error flag (R174). -/
def PortState.framed (q : PortState) (good : Bool) (stored : List Byte) : PortState :=
  if good then { q with framer := .hunting, received := q.received ++ [stored] }
  else { q with framer := .hunting, frameError := true }

theorem takeByte_collect (q : PortState) (remaining : Nat) (stored : List Byte) (spoilt : Bool) (b : LineByte) :
    (q.collect (remaining + 1) stored spoilt).takeByte b =
      (if q.waiting + stored.length < 256 then q.collect remaining (stored ++ [b.value]) (spoilt || !b.stop)
       else q.collect remaining stored true).endFrame := rfl

theorem endFrame_last (q : PortState) (stored : List Byte) (spoilt : Bool) :
    (q.collect 0 stored spoilt).endFrame = q.framed (!spoilt && frameGood stored false) stored := by
  unfold PortState.endFrame PortState.collect PortState.framed
  cases spoilt <;> rfl

/-- The frame that `bytes` end is good: no byte was dropped or spoilt, and it passes its check. -/
def goodFrame (q : PortState) (stored : List Byte) (spoilt : Bool) (bytes : List LineByte) : Bool :=
  !spoilt && bytes.all (·.stop) && decide (q.waiting + stored.length + bytes.length ≤ 256) &&
    frameGood (stored ++ bytes.map (·.value)) false

theorem goodFrame_cons (q : PortState) (stored : List Byte) (spoilt : Bool) (b : LineByte) (rest : List LineByte) :
    goodFrame q stored spoilt (b :: rest) = goodFrame q (stored ++ [b.value]) (spoilt || !b.stop) rest := by
  unfold goodFrame
  simp only [List.all_cons, List.length_cons, List.length_append, List.length_nil, List.map_cons, List.append_assoc,
    List.cons_append, List.nil_append, Bool.not_or, Bool.not_not, Bool.and_assoc]
  congr 4
  rw [decide_eq_decide]
  omega

theorem goodFrame_full (q : PortState) (stored : List Byte) (spoilt : Bool) (b : LineByte) (rest : List LineByte)
    (hfull : ¬ q.waiting + stored.length < 256) : goodFrame q stored spoilt (b :: rest) = false := by
  have hlong : ¬ q.waiting + stored.length + (b :: rest).length ≤ 256 := by
    rw [List.length_cons]
    omega
  rw [goodFrame, decide_eq_false hlong, Bool.and_false, Bool.false_and]

theorem goodFrame_spoilt (q : PortState) (stored : List Byte) (bytes : List LineByte) :
    goodFrame q stored true bytes = false := rfl

theorem goodFrame_nil {q : PortState} {stored : List Byte} (spoilt : Bool) (h : q.waiting + stored.length ≤ 256) :
    goodFrame q stored spoilt [] = (!spoilt && frameGood stored false) := by
  rw [goodFrame, List.all_nil, List.length_nil, Nat.add_zero, decide_eq_true h, Bool.and_true, Bool.and_true,
    List.map_nil, List.append_nil]

/-- The bytes to come are collected, and the frame is checked after the last. -/
theorem takeBytes_collect (q : PortState) (stored : List Byte) (spoilt : Bool) (b : LineByte) (bytes : List LineByte) :
    (b :: bytes).foldl PortState.takeByte (q.collect (bytes.length + 1) stored spoilt) =
      q.framed (goodFrame q stored spoilt (b :: bytes)) (stored ++ (b :: bytes).map (·.value)) := by
  induction bytes generalizing b stored spoilt with
  | nil =>
    show (q.collect (0 + 1) stored spoilt).takeByte b = _
    rw [takeByte_collect]
    split
    next hroom =>
      rw [endFrame_last, goodFrame_cons q stored spoilt b []]
      rw [goodFrame_nil _ (by simp; omega)]
      rfl
    next hfull =>
      rw [endFrame_last, goodFrame_full q stored spoilt b [] hfull]
      rfl
  | cons next rest ih =>
    show (next :: rest).foldl PortState.takeByte ((q.collect (rest.length + 1 + 1) stored spoilt).takeByte b) = _
    rw [takeByte_collect]
    split
    next hroom =>
      refine (ih (stored ++ [b.value]) (spoilt || !b.stop) next).trans ?_
      rw [goodFrame_cons q stored spoilt b _, List.map_cons (l := next :: rest), List.append_assoc]
      rfl
    next hfull =>
      refine (ih stored true next).trans ?_
      rw [goodFrame_full q stored spoilt b _ hfull, goodFrame_spoilt]
      rfl

theorem takeByte_sync {q : PortState} {sync : LineByte} (hq : q.framer = .hunting) (hsync : sync.value = 0xA5) :
    q.takeByte sync = { q with framer := .expectLen !sync.stop } := by
  simp [PortState.takeByte, hq, hsync]

theorem takeByte_len (q : PortState) {len : LineByte} (spoilt : Bool) (h3 : 3 ≤ len.value.toNat)
    (h253 : len.value.toNat ≤ 253) :
    ({ q with framer := .expectLen spoilt } : PortState).takeByte len =
      if q.waiting + 0 < 256 then q.collect (len.value.toNat + 2) [len.value] (spoilt || !len.stop)
      else q.collect (len.value.toNat + 2) [] true := by
  have hlow : ¬ (len.value.toNat < 3 ∨ 253 < len.value.toNat) := by omega
  exact if_neg (by simpa using hlow)

/-- A frame from its SYNC byte on, taken by a HUNTING framer (R172, R173). -/
theorem takeBytes_frame (q : PortState) (sync len : LineByte) (bytes : List LineByte) (hq : q.framer = .hunting)
    (hsync : sync.value = 0xA5) (h3 : 3 ≤ len.value.toNat) (h253 : len.value.toNat ≤ 253)
    (hlength : bytes.length = len.value.toNat + 2) :
    (sync :: len :: bytes).foldl PortState.takeByte q =
      q.framed (sync.stop && goodFrame q [] false (len :: bytes)) ((len :: bytes).map (·.value)) := by
  obtain ⟨b, rest, rfl⟩ : ∃ b rest, bytes = b :: rest := by
    cases bytes with
    | nil => simp at hlength
    | cons b rest => exact ⟨b, rest, rfl⟩
  have hsecond := takeByte_len q (!sync.stop) h3 h253
  rw [← takeByte_sync hq hsync, ← show rest.length + 1 = len.value.toNat + 2 from hlength] at hsecond
  show (b :: rest).foldl PortState.takeByte ((q.takeByte sync).takeByte len) = _
  rw [hsecond]
  split
  next hroom =>
    have hspoilt : goodFrame q [len.value] (!sync.stop || !len.stop) (b :: rest) =
        (sync.stop && goodFrame q [] false (len :: b :: rest)) := by
      rw [goodFrame_cons q [] false len]
      simp [goodFrame, Bool.and_assoc]
    rw [takeBytes_collect, hspoilt]
    rfl
  next hfull =>
    rw [takeBytes_collect, goodFrame_spoilt, goodFrame_full q [] false len _ hfull, Bool.and_false]
    rfl

-- The bytes at a port (R173, R176)

/-- No received command is taken between the bytes: one is in hand, or none has been received. -/
def PortState.Quiet (q : PortState) : Prop := q.inHand ≠ none ∨ q.received = []

theorem takeNext_quiet {s : State} {p : Port} (h : (s.port p).Quiet) : s.takeNext p = s := by
  unfold State.takeNext
  dsimp only
  split
  next heq hreceived =>
    obtain h | h := h
    · exact absurd heq h
    · rw [h] at hreceived
      cases hreceived
  next => rfl

/-- A byte taken by a port that stays quiet takes no command. -/
theorem receiveByte_quiet {s : State} {p : Port} {b : LineByte} (h : ((s.port p).takeByte b).Quiet) :
    s.receiveByte p b = s.setPort p ((s.port p).takeByte b) :=
  takeNext_quiet (by rw [port_setPort, if_pos rfl]; exact h)

/-- While more bytes are to come the framer collects on. -/
theorem takeByte_more (q : PortState) (remaining : Nat) (stored : List Byte) (spoilt : Bool) (b : LineByte) :
    ∃ stored' spoilt',
      (q.collect (remaining + 1 + 1) stored spoilt).takeByte b = q.collect (remaining + 1) stored' spoilt' := by
  rw [takeByte_collect]
  split
  · exact ⟨_, _, rfl⟩
  · exact ⟨_, _, rfl⟩

/-- The bytes of a frame take no command but after the last. -/
theorem receiveBytes_collect {s : State} {p : Port} {q : PortState} {stored : List Byte} {spoilt : Bool} (b : LineByte)
    (bytes : List LineByte) (hp : s.port p = q.collect (bytes.length + 1) stored spoilt) (hq : q.Quiet) :
    (b :: bytes).foldl (State.receiveByte p) s =
      (s.setPort p ((b :: bytes).foldl PortState.takeByte (s.port p))).takeNext p := by
  induction bytes generalizing b s stored spoilt with
  | nil => rfl
  | cons next rest ih =>
    obtain ⟨stored', spoilt', hmore⟩ := takeByte_more q rest.length stored spoilt b
    rw [← show s.port p = q.collect (rest.length + 1 + 1) stored spoilt from hp] at hmore
    have hquiet : ((s.port p).takeByte b).Quiet := by
      rw [hmore]
      exact hq
    have hnext := ih (s := s.setPort p ((s.port p).takeByte b)) next (by rw [port_setPort, if_pos rfl, hmore])
    rw [port_setPort, if_pos rfl, setPort_setPort] at hnext
    rw [List.foldl_cons, receiveByte_quiet hquiet]
    exact hnext

/-- A frame received by a HUNTING framer: it is received or discarded, and a received one is taken if no command is in
hand. -/
theorem receiveBytes_frame {s : State} {p : Port} (sync len : LineByte) (bytes : List LineByte)
    (hf : (s.port p).framer = .hunting) (hq : (s.port p).Quiet) (hsync : sync.value = 0xA5) (h3 : 3 ≤ len.value.toNat)
    (h253 : len.value.toNat ≤ 253) (hlength : bytes.length = len.value.toNat + 2) :
    (sync :: len :: bytes).foldl (State.receiveByte p) s =
      (s.setPort p ((s.port p).framed (sync.stop && goodFrame (s.port p) [] false (len :: bytes))
        ((len :: bytes).map (·.value)))).takeNext p := by
  rw [← takeBytes_frame (s.port p) sync len bytes hf hsync h3 h253 hlength]
  obtain ⟨b, rest, rfl⟩ : ∃ b rest, bytes = b :: rest := by
    cases bytes with
    | nil => simp at hlength
    | cons b rest => exact ⟨b, rest, rfl⟩
  have hsecond := takeByte_len (s.port p) (!sync.stop) h3 h253
  rw [← takeByte_sync hf hsync, ← show rest.length + 1 = len.value.toNat + 2 from hlength] at hsecond
  have hcollects : ∃ stored spoilt, ((s.port p).takeByte sync).takeByte len =
      (s.port p).collect (rest.length + 1) stored spoilt := by
    rw [hsecond]
    split
    · exact ⟨_, _, rfl⟩
    · exact ⟨_, _, rfl⟩
  obtain ⟨stored, spoilt, hcollect⟩ := hcollects
  have hfirst : ((s.port p).takeByte sync).Quiet := by
    rw [takeByte_sync hf hsync]
    exact hq
  have hlen : (((s.setPort p ((s.port p).takeByte sync)).port p).takeByte len).Quiet := by
    rw [port_setPort, if_pos rfl, hcollect]
    exact hq
  have hrest := receiveBytes_collect (s := s.setPort p (((s.port p).takeByte sync).takeByte len)) b rest
    (by rw [port_setPort, if_pos rfl, hcollect]) hq
  rw [port_setPort, if_pos rfl, setPort_setPort] at hrest
  rw [List.foldl_cons, receiveByte_quiet hfirst, List.foldl_cons, receiveByte_quiet hlen, port_setPort, if_pos rfl,
    setPort_setPort]
  exact hrest

-- A frame's bytes (R172, R174)

/-- The bytes of a frame from LEN to the payload, which its CRC covers (R172). -/
def frameBody (kind tag code : Byte) (payload : List Byte) : List Byte :=
  BitVec.ofNat 8 (payload.length + 3) :: kind :: tag :: code :: payload

theorem frameBytes_eq (kind tag code : Byte) (payload : List Byte) :
    frameBytes kind tag code payload =
      0xA5 :: (frameBody kind tag code payload ++ crcBytes (crc16 (frameBody kind tag code payload))) := rfl

theorem crcBytes_eq (c : Word16) : crcBytes c = [BitVec.ofNat 8 (c.toNat / 256), BitVec.ofNat 8 c.toNat] := rfl

/-- A frame is good if its CRC is that of its body and its TYPE is COMMAND (R174). -/
theorem frameGood_eq (kind tag code c1 c2 : Byte) (payload : List Byte) :
    frameGood (frameBody kind tag code payload ++ [c1, c2]) false =
      (decide (crcBytes (crc16 (frameBody kind tag code payload)) = [c1, c2]) && decide (kind = 0x01)) := by
  have hbody : (frameBody kind tag code payload ++ [c1, c2]).dropLast.dropLast = frameBody kind tag code payload := by
    rw [show [c1, c2] = [c1] ++ [c2] from rfl, ← List.append_assoc, List.dropLast_concat, List.dropLast_concat]
  unfold frameGood
  rw [hbody]
  simp only [Bool.not_false, Bool.true_and, List.append_cancel_left_eq]
  congr 1
  rw [decide_eq_decide]
  exact Option.some_inj

theorem toNat_len {payload : List Byte} (h : payload.length ≤ 250) :
    (BitVec.ofNat 8 (payload.length + 3)).toNat = payload.length + 3 := by
  rw [BitVec.toNat_ofNat]
  exact Nat.mod_eq_of_lt (by omega)

/-- A frame's bytes at a HUNTING framer, whatever its TYPE, CRC and stop bits. -/
theorem receive_values {s : State} {p : Port} {kind tag code c1 c2 : Byte} {payload : List Byte} {bytes : List LineByte}
    (hvalues : bytes.map (·.value) = 0xA5 :: (frameBody kind tag code payload ++ [c1, c2])) (hl : payload.length ≤ 250)
    (hf : (s.port p).framer = .hunting) (hq : (s.port p).Quiet) :
    bytes.foldl (State.receiveByte p) s =
      (s.setPort p ((s.port p).framed
        (bytes.all (·.stop) && decide ((s.port p).waiting + (payload.length + 6) ≤ 256) &&
          (decide (crcBytes (crc16 (frameBody kind tag code payload)) = [c1, c2]) && decide (kind = 0x01)))
        (frameBody kind tag code payload ++ [c1, c2]))).takeNext p := by
  obtain ⟨sync, rest, rfl, hsync, hrest⟩ := List.map_eq_cons_iff.1 hvalues
  obtain ⟨len, more, rfl, hlen, hmore⟩ := List.map_eq_cons_iff.1 hrest
  have hlenNat : len.value.toNat = payload.length + 3 := by rw [hlen, toNat_len hl]
  have hcount : more.length = len.value.toNat + 2 := by
    rw [hlenNat, ← List.length_map (f := (·.value)), hmore]
    simp
  rw [receiveBytes_frame sync len more hf hq hsync (by omega) (by omega) hcount, hrest]
  have hgood : (sync.stop && goodFrame (s.port p) [] false (len :: more)) =
      ((sync :: len :: more).all (·.stop) && decide ((s.port p).waiting + (payload.length + 6) ≤ 256) &&
        (decide (crcBytes (crc16 (frameBody kind tag code payload)) = [c1, c2]) && decide (kind = 0x01))) := by
    have hfits : (s.port p).waiting + ([] : List Byte).length + (len :: more).length =
        (s.port p).waiting + (payload.length + 6) := by
      simp [hcount, hlenNat]
    unfold goodFrame
    rw [hfits, List.nil_append, hrest, frameGood_eq]
    simp [Bool.and_assoc]
  rw [hgood]

theorem setPort_port (s : State) (p : Port) : s.setPort p (s.port p) = s := by cases p <;> rfl

theorem exec_frameReceived {s : State} {p : Port} (hold : Bool) (bytes : List LineByte) (hr : s.run ≠ .off) :
    exec (.frameReceived p hold bytes) s = .next (bytes.foldl (State.receiveByte p) ((s.setHold p hold).choose p)) :=
  congrArg Host.Outcome.next (if_neg hr)

/-- A port that has no frame to choose stays as it is with its hold input at the level it had. -/
theorem hold_choose {s : State} {p : Port} (h : (s.port p).chooseFrame = s.port p) :
    (s.setHold p (s.port p).hold).choose p = s := by
  rw [State.setHold, choose_setPort]
  exact (congrArg (s.setPort p) h).trans (setPort_port s p)

/-- A frame that is not good is discarded with the frame-error flag, and takes no command. -/
theorem framed_bad {s : State} {p : Port} (hf : (s.port p).framer = .hunting) (hq : (s.port p).Quiet)
    (stored : List Byte) :
    (s.setPort p ((s.port p).framed false stored)).takeNext p = s.setPort p { s.port p with frameError := true } := by
  have hbad : (s.port p).framed false stored = { s.port p with frameError := true } := by
    rw [PortState.framed, if_neg (by decide), ← hf]
  rw [hbad]
  refine takeNext_quiet ?_
  rw [port_setPort, if_pos rfl]
  exact hq

theorem map_onLine (bytes : List Byte) : (onLine bytes).map (·.value) = bytes := by
  simp [onLine, Function.comp_def]

theorem all_onLine (bytes : List Byte) : (onLine bytes).all (·.stop) = true := by
  simp [onLine]

/-- The CRC is carried high byte first (R148). -/
theorem append_of_crcBytes {c : Word16} {hi lo : Byte} (h : crcBytes c = [hi, lo]) : hi ++ lo = c := by
  rw [crcBytes_eq] at h
  obtain ⟨rfl, rfl⟩ : BitVec.ofNat 8 (c.toNat / 256) = hi ∧ BitVec.ofNat 8 c.toNat = lo := by simpa using h
  have hc := c.isLt
  refine BitVec.eq_of_toNat_eq ?_
  rw [BitVec.toNat_append, BitVec.toNat_ofNat, BitVec.toNat_ofNat, ← Nat.shiftLeft_add_eq_or_of_lt (by omega),
    Nat.shiftLeft_eq]
  omega

/-- The port with its framer in a state. -/
def PortState.framing (q : PortState) (f : Framer) : PortState := { q with framer := f }

theorem framing_of_eq {q : PortState} {f : Framer} (h : q.framer = f) : q.framing f = q := by rw [← h]; rfl

/-- A LEN byte out of range ends the frame at once (R173). -/
theorem receive_badLen {s : State} {p : Port} {len : Byte} (hf : (s.port p).framer = .hunting) (hq : (s.port p).Quiet)
    (hlen : len.toNat < 3 ∨ 253 < len.toNat) :
    (onLine [0xA5, len]).foldl (State.receiveByte p) s = s.setPort p { s.port p with frameError := true } := by
  have hfirst : (s.port p).takeByte ⟨0xA5, true⟩ = (s.port p).framing (.expectLen false) := takeByte_sync hf rfl
  have hbad : ((s.port p).framing (.expectLen false)).takeByte ⟨len, true⟩ =
      { (s.port p).framing .hunting with frameError := true } := if_pos (by simpa using hlen)
  rw [framing_of_eq hf] at hbad
  show (s.receiveByte p ⟨0xA5, true⟩).receiveByte p ⟨len, true⟩ = _
  rw [receiveByte_quiet (s := s) (by rw [hfirst]; exact hq), hfirst]
  have hsecond : ((s.setPort p ((s.port p).framing (.expectLen false))).port p).takeByte ⟨len, true⟩ =
      { s.port p with frameError := true } := by rw [port_setPort, if_pos rfl, hbad]
  rw [receiveByte_quiet (by rw [hsecond]; exact hq), hsecond, setPort_setPort]

/-- Settles O39: a frame is received only if it is good (`receive_values`); LEN is checked as it comes. -/
theorem badFramesAreDiscarded : Obligations.BadFramesAreDiscarded := by
  refine ⟨fun s p hr hf hreceived hchoose => ?_, fun s p hr hf => ?_, fun s p hf => ?_⟩
  · have hq : (s.port p).Quiet := .inr hreceived
    have hdiscarded {kind tag code c1 c2 : Byte} {payload : List Byte} {bytes : List LineByte}
        (hvalues : bytes.map (·.value) = 0xA5 :: (frameBody kind tag code payload ++ [c1, c2]))
        (hl : payload.length ≤ 250)
        (hbad : bytes.all (·.stop) = false ∨ crcBytes (crc16 (frameBody kind tag code payload)) ≠ [c1, c2] ∨ kind ≠ 0x01) :
        exec (.frameReceived p (s.port p).hold bytes) s = .next (s.setPort p { s.port p with frameError := true }) := by
      rw [exec_frameReceived _ bytes hr, hold_choose hchoose, receive_values hvalues hl hf hq, ← framed_bad hf hq]
      congr 4
      obtain hstop | hcrc | hkind := hbad
      · rw [hstop, Bool.false_and, Bool.false_and]
      · rw [decide_eq_false hcrc, Bool.false_and, Bool.and_false]
      · rw [decide_eq_false hkind, Bool.and_false, Bool.and_false]
    refine ⟨fun kind tag code payload hl hkind => ?_, fun kind tag code hi lo payload hl => ?_,
      fun kind tag code payload bytes hl hvalues hstop => ?_, fun len hlen => ?_⟩
    · exact hdiscarded ((map_onLine _).trans (by rw [frameBytes_eq, crcBytes_eq])) hl (.inr (.inr hkind))
    · intro body hcrc
      exact hdiscarded (map_onLine _) hl (.inr (.inl fun h => hcrc (append_of_crcBytes h)))
    · refine hdiscarded (hvalues.trans (by rw [frameBytes_eq, crcBytes_eq])) hl (.inl ?_)
      obtain ⟨b, hb, hstop⟩ := hstop
      exact List.all_eq_false.2 ⟨b, hb, by simp [hstop]⟩
    · have hexec := exec_frameReceived (p := p) (s.port p).hold (onLine [0xA5, len]) hr
      rw [hold_choose hchoose, receive_badLen hf hq hlen] at hexec
      exact hexec
  · exact congrArg Host.Outcome.next (if_neg (by simp [hr, hf]))
  · exact congrArg Host.Outcome.next (if_pos (by simp [hf]))

-- Received commands (R176, R177)

/-- The rows that stand for a command do what its CODE does. -/
theorem exec_standsFor {s t : State} {p : Port} {tag code : Byte} {payload : List Byte} {i : Instr}
    (h : StandsFor s p tag code payload i) (ht : t.storeFailure = s.storeFailure) :
    exec i t = .next (t.command p tag code payload fun u => u.perform p code payload) := by
  obtain rfl | ⟨name, hname, rfl⟩ := h
  · rfl
  · rw [← ht, exec_commandRow, ← code_of_commandOf hname]
    simp only [perform_named payload (commandOf_code name)]

/-- A command that reaches a powered port with no command in hand is taken. -/
theorem command_takes {s : State} {p : Port} (tag code : Byte) (payload : List Byte) (own : State → State × Reply)
    (hr : s.run ≠ .off) (hi : (s.port p).inHand = none) : s.command p tag code payload own = s.take p tag code own := by
  rw [State.command, if_neg hr, if_pos (by rw [hi]; rfl)]

theorem frameTail_eq (tag code : Byte) (payload : List Byte) :
    (frameBytes 0x01 tag code payload).tail =
      frameBody 0x01 tag code payload ++ crcBytes (crc16 (frameBody 0x01 tag code payload)) := rfl

/-- The oldest received frame is taken as the command it carries. -/
theorem takeNext_frame {s : State} {p : Port} {tag code : Byte} {payload : List Byte} {rest : List (List Byte)}
    (hi : (s.port p).inHand = none) (hreceived : (s.port p).received = (frameBytes 0x01 tag code payload).tail :: rest) :
    s.takeNext p =
      (s.setPort p { s.port p with received := rest }).take p tag code fun u => u.perform p code payload := by
  have hpayload (c : Word16) : (payload ++ crcBytes c).dropLast.dropLast = payload := by
    rw [crcBytes_eq, show ∀ a b : Byte, [a, b] = [a] ++ [b] from fun _ _ => rfl, ← List.append_assoc,
      List.dropLast_concat, List.dropLast_concat]
  unfold State.takeNext
  simp only [hi, hreceived, frameTail_eq, frameBody, List.cons_append, hpayload]

/-- The transmitter is busy once a reply is in hand: it is sent, or a notice before it is (R185). -/
theorem hand_busy (q : PortState) (tag code : Byte) (r : Reply) : (q.hand tag code r).sending ≠ none := by
  by_cases hs : q.sending = none
  · unfold PortState.hand PortState.chooseFrame
    simp only [hs]
    rw [if_neg (by decide)]
    cases hn : q.notices with
    | nil => simp [PortState.sendReply]
    | cons first rest => cases hh : q.hold <;> simp [PortState.sendReply, PortState.sendNotice]
  · rw [hand_sending tag code r hs]
    exact hs

theorem chooseFrame_busy {q : PortState} (h : q.sending ≠ none) : q.chooseFrame = q := by
  obtain ⟨frame, hframe⟩ := Option.ne_none_iff_exists'.1 h
  unfold PortState.chooseFrame
  rw [hframe]

theorem choose_take (s : State) (p : Port) (tag code : Byte) (own : State → State × Reply) :
    (s.take p tag code own).choose p = s.take p tag code own := by
  have hport : (s.take p tag code own).port p = _ := (port_take s p p tag code own).trans (if_pos rfl)
  rw [State.choose, hport, chooseFrame_busy (hand_busy _ tag code _), ← hport, setPort_port]

theorem length_frameTail (tag code : Byte) (payload : List Byte) :
    (frameBytes 0x01 tag code payload).tail.length = payload.length + 6 := by
  rw [frameTail_eq, crcBytes_eq]
  simp [frameBody]

/-- A good frame that comes while a command is in hand waits or is discarded as its row is (R175, R176). -/
theorem framed_keep {q : PortState} {stored : List Byte} (tag code : Byte) (payload : List Byte) (hf : q.framer = .hunting)
    (hstored : stored = (frameBytes 0x01 tag code payload).tail) :
    q.framed (decide (q.waiting + (payload.length + 6) ≤ 256)) stored = q.keep code tag payload := by
  have hbuffered : q.buffered = q.waiting := by rw [PortState.buffered, hf]; rfl
  unfold PortState.framed PortState.keep
  dsimp only
  rw [hbuffered, length_frameTail, hstored, ← hf]
  exact if_congr (decide_eq_true_iff) rfl rfl

/-- The bytes of a good COMMAND frame, with every stop bit. -/
theorem receive_frame {s : State} {p : Port} (tag code : Byte) {payload : List Byte} (hl : payload.length ≤ 250)
    (hf : (s.port p).framer = .hunting) (hq : (s.port p).Quiet) :
    (onLine (frameBytes 0x01 tag code payload)).foldl (State.receiveByte p) s =
      (s.setPort p ((s.port p).keep code tag payload)).takeNext p := by
  have h := receive_values (bytes := onLine (frameBytes 0x01 tag code payload))
    ((map_onLine _).trans (by rw [frameBytes_eq, crcBytes_eq])) hl hf hq
  rw [h, all_onLine, Bool.true_and, ← framed_keep tag code payload hf rfl]
  congr 3
  rw [crcBytes_eq]
  simp

/-- A port with nothing to send has no frame to choose. -/
theorem chooseFrame_rest {q : PortState} (hi : q.inHand = none) (hn : q.notices = []) : q.chooseFrame = q := by
  unfold PortState.chooseFrame PortState.sendNotice
  rw [hi, hn]
  cases q.sending with
  | some _ => rfl
  | none => exact ite_self _

/-- The receive buffer of a HUNTING framer holds the received commands alone. -/
theorem keep_eq {q : PortState} (tag code : Byte) (payload : List Byte) (hf : q.framer = .hunting) :
    q.keep code tag payload =
      if (q.received.map List.length).sum + payload.length + 6 ≤ 256 then
        { q with received := q.received ++ [(frameBytes 0x01 tag code payload).tail] }
      else { q with frameError := true } := by
  have hbuffered : q.buffered = (q.received.map List.length).sum := by rw [PortState.buffered, hf]; rfl
  unfold PortState.keep
  dsimp only
  rw [hbuffered, length_frameTail]
  exact if_congr (by rw [Nat.add_assoc]; rfl) rfl rfl

/-- A frame received with no command in hand is taken at once. -/
theorem receive_taken {s : State} {p : Port} (tag code : Byte) {payload : List Byte} (hl : payload.length ≤ 250)
    (hf : (s.port p).framer = .hunting) (hi : (s.port p).inHand = none) (hreceived : (s.port p).received = []) :
    (onLine (frameBytes 0x01 tag code payload)).foldl (State.receiveByte p) s =
      s.take p tag code fun u => u.perform p code payload := by
  have hkeep : (s.port p).keep code tag payload =
      { s.port p with received := [(frameBytes 0x01 tag code payload).tail] } := by
    rw [keep_eq tag code payload hf, hreceived, if_pos (by simp; omega)]
    rfl
  have hback : ({ s.port p with received := [] } : PortState) = s.port p := by rw [← hreceived]
  rw [receive_frame tag code hl hf (.inr hreceived), hkeep,
    takeNext_frame (rest := []) (by rw [port_setPort, if_pos rfl]; exact hi) (by rw [port_setPort, if_pos rfl]),
    port_setPort, if_pos rfl, setPort_setPort]
  exact congrArg (fun u : State => u.take p tag code fun u => u.perform p code payload)
    ((congrArg (s.setPort p) hback).trans (setPort_port s p))

/-- Settles O38: the bytes are kept as their row is (`receive_frame`), and a received frame is taken with the effect of its
row (`takeNext_frame`, `exec_standsFor`). -/
theorem frameReceivedIsCommand : Obligations.FrameReceivedIsCommand := by
  refine ⟨fun s p hold tag code payload hr hf hreceived hi hn hl => ?_, fun s p tag code payload i h => ?_,
    fun s p hold tag code t c payload r rest i => ?_⟩
  · have hport : (s.setPort p { s.port p with hold := hold }).port p = { s.port p with hold := hold } := by
      rw [port_setPort, if_pos rfl]
    refine ⟨_, exec_frameReceived hold _ hr, fun i hstands => ?_⟩
    rw [State.setHold, choose_setPort, chooseFrame_rest (by exact hi) (by exact hn),
      receive_taken tag code hl (by rw [hport]; exact hf) (by rw [hport]; exact hi) (by rw [hport]; exact hreceived),
      exec_standsFor hstands (by simp), command_takes tag code payload _ (by simpa using hr) (by rw [hport]; exact hi)]
  · intro q frame fits kept hr hf hh hchoose hl hstands
    have hq : q.Quiet := .inl (by rw [hh]; exact Option.some_ne_none h)
    have hkept : s.setPort p (q.keep code tag payload) = kept := congrArg (s.setPort p) (keep_eq tag code payload hf)
    have hquiet : (s.setPort p (q.keep code tag payload)).takeNext p = s.setPort p (q.keep code tag payload) := by
      refine takeNext_quiet (.inl ?_)
      rw [port_setPort, if_pos rfl, keep_eq tag code payload hf]
      split <;> exact ne_of_eq_of_ne hh (Option.some_ne_none h)
    have hhand : (s.port p).inHand = some h := hh
    constructor
    · rw [exec_frameReceived q.hold _ hr, hold_choose hchoose, receive_frame tag code hl hf hq, hquiet, hkept]
    · rw [exec_standsFor hstands rfl, State.command, if_neg hr, hhand]
      exact congrArg Host.Outcome.next hkept
  · intro q hr hs hreceived hstands
    have hport : (s.setPort p { s.port p with hold := hold, sending := none, inHand := none }).port p =
        { s.port p with hold := hold, sending := none, inHand := none } := by rw [port_setPort, if_pos rfl]
    rw [exec_frameSent hold hr, endFrame_reply hold hs,
      takeNext_frame (by rw [hport]) (by rw [hport]; exact hreceived), choose_take, exec_standsFor hstands (by simp),
      command_takes tag code payload _ (by simpa using hr) (by rw [port_setPort, if_pos rfl]), hport, setPort_setPort]

end Sys2Proof.Machine
end

section
/-!
PROOFS. The tariff classes, the filters and the adjusting of an account (R133, R138, R144), settled.
-/
namespace Sys2Proof.Machine

variable {s : State}

-- Numbers of several bytes (R207)

theorem toNat_append_byte {n : Nat} (a : BitVec n) (b : Byte) : (a ++ b).toNat = a.toNat * 256 + b.toNat := by
  rw [BitVec.toNat_append, ← Nat.shiftLeft_add_eq_or_of_lt b.isLt, Nat.shiftLeft_eq]

theorem ofNat_num2 (a b : Byte) : BitVec.ofNat 16 (num2 a b) = a ++ b := by
  refine BitVec.eq_of_toNat_eq ?_
  rw [toNat_append_byte, BitVec.toNat_ofNat, num2]
  omega

theorem toNat_num4 (a b c d : Byte) : (a ++ b ++ c ++ d).toNat = num4 a b c d := by
  rw [toNat_append_byte, toNat_append_byte, toNat_append_byte, num4, num3, num2]
  omega

theorem ofNat_num4 (a b c d : Byte) : BitVec.ofNat 32 (num4 a b c d) = a ++ b ++ c ++ d := by
  rw [← toNat_num4]
  exact BitVec.eq_of_toNat_eq (by simp)

theorem signed4_eq (a b c d : Byte) : signed4 a b c d = (a ++ b ++ c ++ d).toInt := by
  rw [BitVec.toInt_eq_toNat_cond, toNat_num4, signed4]
  exact if_congr (by omega) rfl rfl

-- TARIFF_WRITE (R133)

theorem doTariffWrite_refused {flags cls r1 r2 unit grace k1 k2 k3 d1 d2 l1 l2 limit : Byte} {x : Result}
    (h : firstFailure (tariffWriteChecks s flags cls unit limit) = some x) :
    doTariffWrite .ops [flags, cls, r1, r2, unit, grace, k1, k2, k3, d1, d2, l1, l2, limit] s = refuse s x := by
  unfold tariffWriteChecks at h
  simp only [firstFailure_cons, firstFailure_nil] at h
  by_cases hflags : 1 < flags.toNat
  · rw [if_pos (by simp [hflags])] at h
    simp only [doTariffWrite, conditionOf_of_lt hflags, Option.some.inj h]
  · simp only [doTariffWrite, conditionOf_of_not_lt hflags, conditionMet_eq_not_lostTo, Bool.not_not]
    refine refuse_of_check s (by simp [hflags, or_assoc]) h fun h => ?_
    exact refuse_of_check s (by simp) h fun h => nomatch h

theorem doTariffWrite_writes {cond : Bool} {cls r1 r2 unit grace k1 k2 k3 d1 d2 l1 l2 limit : Byte}
    (hcls : cls.toNat ≤ 7) (hunit : 1 ≤ unit.toNat) (hunit' : unit.toNat ≤ 240) (hlimit : 1 ≤ limit.toNat)
    (hlimit' : limit.toNat ≤ 4) (hallow : s.Allows cond .ops ⟨.tariff cls.toNat, 0⟩) :
    doTariffWrite .ops [flagByte cond, cls, r1, r2, unit, grace, k1, k2, k3, d1, d2, l1, l2, limit] s =
      ((s.setTariff cls.toNat
        ⟨num2 r1 r2, unit.toNat, grace.toNat, num3 k1 k2 k3, num2 d1 d2, num2 l1 l2, limit.toNat⟩).consume cond .ops,
        .bare .ok) := by
  have hne {b : Byte} (h : 1 ≤ b.toNat) : b ≠ 0x00 := fun e => by
    rw [e] at h
    exact absurd h (by decide)
  simp only [doTariffWrite, conditionOf_flagByte, conditionMet_of_allows s hallow]
  have hin : ¬ (decide (7 < cls.toNat) || decide (unit = 0x00) || decide (240 < unit.toNat) || decide (limit = 0x00) ||
      decide (4 < limit.toNat)) = true := by
    simp only [Bool.or_eq_true, decide_eq_true_eq, hne hunit, hne hlimit, or_false]
    omega
  rw [if_neg hin, if_neg (by decide)]

-- FILTER_WRITE (R144)

theorem positions_above (f : Filter) :
    (f.positions.any fun i => 63 < i) = decide (∃ i ∈ List.range 32, f.mask.getLsbD i = true ∧ 63 < f.offset + i) := by
  rw [Bool.eq_iff_iff]
  simp [Filter.positions]

theorem doFilterWrite_refused {filter enabled offset m1 m2 m3 m4 c1 c2 last chain cls : Byte} {x : Result}
    (h : firstFailure (filterWriteChecks filter enabled offset (m1 ++ m2 ++ m3 ++ m4) chain cls) = some x) :
    doFilterWrite .ops [filter, enabled, offset, m1, m2, m3, m4, c1, c2, last, chain, cls] s = refuse s x := by
  unfold filterWriteChecks at h
  simp only [firstFailure_cons, firstFailure_nil] at h
  by_cases henabled : 1 < enabled.toNat
  · rw [if_pos (by simp [henabled])] at h
    simp only [doFilterWrite, flagOf_of_lt henabled, Option.some.inj h]
  by_cases hchain : 1 < chain.toNat
  · rw [if_pos (by simp [hchain])] at h
    simp only [doFilterWrite, flagOf_of_not_lt henabled, flagOf_of_lt hchain, Option.some.inj h]
  simp only [doFilterWrite, flagOf_of_not_lt henabled, flagOf_of_not_lt hchain, positions_above, ofNat_num4]
  have hseven : filter.toNat = 7 ↔ filter = 0x07 := (BitVec.toNat_eq (y := 0x07)).symm
  refine refuse_of_check s ?_ h fun h => nomatch h
  simp only [Bool.or_eq_true, Bool.and_eq_true, decide_eq_true_eq, henabled, hchain, hseven, false_or, or_assoc]

theorem doFilterWrite_writes {filter offset m1 m2 m3 m4 c1 c2 last cls : Byte} {enabled chain : Bool}
    (hfilter : filter.toNat ≤ 7) (hoffset : offset.toNat ≤ 63) (hcls : cls.toNat ≤ 7)
    (hchain : chain = true → filter.toNat ≠ 7)
    (hmask : ∀ i, i < 32 → (m1 ++ m2 ++ m3 ++ m4).getLsbD i = true → offset.toNat + i ≤ 63) :
    doFilterWrite .ops [filter, if enabled then 0x01 else 0x00, offset, m1, m2, m3, m4, c1, c2, last,
        if chain then 0x01 else 0x00, cls] s =
      (s.setFilter filter.toNat ⟨enabled, offset.toNat, m1 ++ m2 ++ m3 ++ m4, c1 ++ c2, last, chain, cls.toNat⟩,
        .bare .ok) := by
  simp only [doFilterWrite, flagOf_ite, positions_above, ofNat_num4, ofNat_num2]
  refine if_neg ?_
  simp only [Bool.or_eq_true, Bool.and_eq_true, decide_eq_true_eq, List.mem_range]
  rintro ((((h | h) | h) | ⟨hc, h⟩) | ⟨i, hi, hbit, habove⟩)
  · omega
  · omega
  · omega
  · exact hchain hc h
  · exact absurd (hmask i hi hbit) (by omega)

/-- Settles O41: each refusal is decided by the first check that fails, and an accepted command is one write. -/
theorem tariffAndFilterWrite : Obligations.TariffAndFilterWrite := by
  refine ⟨fun s tag flags cls r1 r2 unit grace k1 k2 k3 d1 d2 l1 l2 limit ht =>
      refusedBy_own (name := .tariffWrite) rfl ht rfl rfl fun x hx => doTariffWrite_refused hx,
    fun s tag filter enabled offset m1 m2 m3 m4 c1 c2 last chain cls ht =>
      refusedBy_own (name := .filterWrite) rfl ht rfl rfl fun x hx => doFilterWrite_refused hx,
    fun s cond tag cls r1 r2 unit grace k1 k2 k3 d1 d2 l1 l2 limit ht hcls hunit hunit' hlimit hlimit' hallow => ?_,
    fun s tag filter offset m1 m2 m3 m4 c1 c2 last cls enabled chain mask ht hfilter hoffset hcls hchain hmask hbits => ?_⟩
  · refine ⟨_, client_next (name := .tariffWrite) ht rfl rfl
      (doTariffWrite_writes hcls hunit hunit' hlimit hlimit' hallow), ?_, fun k hk => ?_,
      answeredIf_after (told_setTariff s cls.toNat _), ?_⟩
    · simp [num3_eq, num2]
    · simp [tariff_setTariff, hk]
    · refine (after_frame _ _ _ _ _).trans ?_
      ext <;> simp
  · subst hmask
    refine ⟨_, client_next (name := .filterWrite) ht rfl rfl (doFilterWrite_writes hfilter hoffset hcls hchain hbits), ?_,
      fun k hk => ?_, answered_after (s' := s.setFilter _ _) (fun p => rfl), ?_⟩
    · simp [filter_setFilter]
    · simp [filter_setFilter, hk]
    · refine (after_frame _ _ _ _ _).trans ?_
      ext <;> simp

-- ACCOUNT_ADJUST (R131, R138)

theorem doAccountAdjust_refused {p : Port} {flags hi lo g a1 a2 a3 a4 : Byte} {x : Result}
    (h : firstFailure (accountAdjustChecks s p flags ⟨hi.toNat * 256 + lo.toNat, g.toNat⟩) = some x) :
    doAccountAdjust p [flags, hi, lo, g, a1, a2, a3, a4] s = refuse s x := by
  rw [← show refOf hi lo g = ⟨hi.toNat * 256 + lo.toNat, g.toNat⟩ from rfl] at h
  unfold accountAdjustChecks at h
  simp only [firstFailure_cons, firstFailure_nil] at h
  by_cases hflags : 1 < flags.toNat
  · rw [if_pos (by simp [hflags])] at h
    simp only [doAccountAdjust, conditionOf_of_lt hflags, Option.some.inj h]
  simp only [doAccountAdjust, conditionOf_of_not_lt hflags, conditionMet_eq_not_lostTo, Bool.not_not]
  refine refuse_of_check s (by simp [hflags]) h fun h => ?_
  refine refuse_of_check s (by simp) h fun h => ?_
  cases hopen : s.openAccount (refOf hi lo g) with
  | none =>
    rw [if_pos ((openAccount_eq_none_iff s _).mp hopen)] at h
    rw [← Option.some.inj h]
  | some o =>
    rw [if_neg ((openAccount_eq_none_iff s _).not.mp (by simp [hopen]))] at h
    exact nomatch h

/-- The running charge is the sum held to 0 and to 4,294,967,295 (R131). -/
theorem adjust_eq (o : OpenAccount) (amount : Int) :
    o.adjust amount =
      { o with
        running :=
          if (o.running : Int) + amount < 0 then 0
          else if 4294967295 < (o.running : Int) + amount then 4294967295 else ((o.running : Int) + amount).toNat
        saturated := o.saturated || decide (4294967295 < (o.running : Int) + amount) } := by
  have hrunning : adjusted o.running amount =
      if (o.running : Int) + amount < 0 then 0
      else if 4294967295 < (o.running : Int) + amount then 4294967295 else ((o.running : Int) + amount).toNat := by
    unfold adjusted
    rw [show Config.top32 = 4294967295 from rfl, Int.ofNat_eq_natCast]
    split
    · omega
    · split <;> omega
  unfold OpenAccount.adjust
  rw [hrunning]
  rfl

theorem doAccountAdjust_adds {p : Port} {cond : Bool} {hi lo g a1 a2 a3 a4 : Byte} {o : OpenAccount}
    (hindex : (refOf hi lo g).index ≤ 1023)
    (hallow : s.Allows cond p ⟨.account (refOf hi lo g).index, (refOf hi lo g).generation⟩)
    (hopen : s.openAccount (refOf hi lo g) = some o) :
    doAccountAdjust p [flagByte cond, hi, lo, g, a1, a2, a3, a4] s =
      ((s.setOpen (refOf hi lo g) (o.adjust (a1 ++ a2 ++ a3 ++ a4).toInt)).consume cond p,
        ⟨.ok, byte4 (o.adjust (a1 ++ a2 ++ a3 ++ a4).toInt).running ++
          byteFlag (o.adjust (a1 ++ a2 ++ a3 ++ a4).toInt).saturated⟩) := by
  simp only [doAccountAdjust, conditionOf_flagByte, conditionMet_of_allows s hallow, hopen, signed4_eq]
  rw [if_neg (by omega), if_neg (by decide)]

/-- Settles O44: the account is written with the adjusted charge (`adjust_eq`). -/
theorem accountAdjustAdds : Obligations.AccountAdjustAdds := by
  refine ⟨fun s p tag flags hi lo g a1 a2 a3 a4 ht => refusedBy_own (name := .accountAdjust) rfl ht rfl rfl
    fun x hx => doAccountAdjust_refused hx, ?_⟩
  intro s p cond tag hi lo g a1 a2 a3 a4 o ht hindex hallow haccount i sum after
  have hopen : s.openAccount (refOf hi lo g) = some o := by
    rw [State.openAccount, show s.account (refOf hi lo g).index = ⟨g.toNat, some o⟩ from haccount]
    exact if_pos rfl
  have hafter : (⟨g.toNat, some (o.adjust (a1 ++ a2 ++ a3 ++ a4).toInt)⟩ : Account) = after :=
    congrArg (fun v => Account.mk g.toNat (some v)) (adjust_eq o _)
  have hset : s.setOpen (refOf hi lo g) (o.adjust (a1 ++ a2 ++ a3 ++ a4).toInt) = s.setAccount i after := by
    rw [← hafter, State.setOpen, show s.account (refOf hi lo g).index = ⟨g.toNat, some o⟩ from haccount]
    rfl
  refine ⟨_, client_next (name := .accountAdjust) ht rfl rfl (doAccountAdjust_adds hindex hallow hopen), ?_,
    fun j hj => ?_, ⟨_, answeredIf_after ?_, ?_⟩, ?_⟩
  · rw [hset]
    simp
  · rw [hset]
    simp [account_setAccount, hj]
  · rw [hset]
    exact told_setAccount s i after
  · intro v hv
    rw [← hafter] at hv
    rw [← Option.some.inj hv]
    rfl
  · rw [hset]
    refine (after_frame _ _ _ _ _).trans ?_
    ext <;> simp

end Sys2Proof.Machine
end

section
/-!
PROOFS. The pool of receivers (R103 to R107), settled.
-/
namespace Sys2Proof.Machine

variable {s : State}

-- The checks of the pool

/-- The first number from `k` on at which a test passes. -/
theorem firstFrom_eq_some {f : Nat → Bool} {n k i : Nat} (hk : k ≤ i) (hi : i < k + n) (h : f i = true)
    (hlow : ∀ j, k ≤ j → j < i → f j = false) : firstFrom f n k = some i := by
  induction n generalizing k with
  | zero => omega
  | succ n ih =>
    unfold firstFrom
    by_cases he : k = i
    · rw [if_pos (he ▸ h), he]
    · rw [if_neg (by rw [hlow k le_rfl (by omega)]; decide)]
      exact ih (by omega) (by omega) fun j hj => hlow j (by omega)

theorem firstFrom_eq_none {f : Nat → Bool} {n k : Nat} (h : ∀ j, k ≤ j → j < k + n → f j = false) :
    firstFrom f n k = none := by
  induction n generalizing k with
  | zero => rfl
  | succ n ih =>
    rw [firstFrom, if_neg (by rw [h k le_rfl (by omega)]; decide)]
    exact ih fun j hj hj' => h j (by omega) (by omega)

theorem freeReceiver_some {i : Nat} (hi : i ≤ 4095) (hfree : s.receiver i = none)
    (hlow : ∀ j, j < i → s.receiver j ≠ none) : s.freeReceiver = some i := by
  refine firstFrom_eq_some (Nat.zero_le i) (by omega) (by rw [hfree]; rfl) fun j _ hj => ?_
  rw [Option.isNone_eq_false_iff, Option.isSome_iff_ne_none]
  exact hlow j hj

theorem freeReceiver_none (h : poolFull s = true) : s.freeReceiver = none := by
  refine firstFrom_eq_none fun j _ hj => ?_
  rw [Option.isNone_eq_false_iff, Option.isSome_iff_ne_none]
  exact of_decide_eq_true h j (List.mem_range.2 (by omega))

theorem serialOk_iff (serial : Nat) : serialOk serial = !badSerial serial := by
  unfold serialOk badSerial
  rw [← decide_not, ← Bool.decide_and]
  refine decide_eq_decide.2 ?_
  simp only [Config.topSerial]
  omega

/-- The slot byte of a desk's command names one of its rack's fitted slots, or none (R105, R118, R124). -/
theorem ownSlot_eq (s : State) (r : Rack) (slot : Byte) :
    s.ownSlot (deskOf r) slot = if badSlot s r slot then none else some r := by
  have hown : ownRack (deskOf r) = some r := by cases r <;> rfl
  have hbad : (slot.toNat ≤ 31 && s.slotFitted r slot.toNat) = !badSlot s r slot := by
    unfold State.slotFitted badSlot
    cases hfit : s.rackFitted r with
    | false => simp
    | true =>
      rw [Bool.true_and, ← decide_not, ← Bool.decide_and]
      exact decide_eq_decide.2 (by simp)
  unfold State.ownSlot
  rw [hown]
  dsimp only
  rw [hbad]
  cases badSlot s r slot <;> rfl

theorem doReceiverEnroll_refused {a b c : Byte} {x : Result}
    (h : firstFailure (receiverEnrollChecks s (num3 a b c)) = some x) : doReceiverEnroll .ops [a, b, c] s = refuse s x := by
  unfold receiverEnrollChecks at h
  simp only [firstFailure_cons, firstFailure_nil] at h
  simp only [doReceiverEnroll, serialOk_iff, Bool.not_not]
  refine refuse_of_check s Iff.rfl h fun h => ?_
  refine refuse_of_check s (by simp [Option.isSome_iff_ne_none]) h fun h => ?_
  split at h
  next hfull => simp only [freeReceiver_none hfull, Option.some.inj h]
  next => cases h

theorem doEnrollSlot_refused {r : Rack} {slot : Byte} {x : Result}
    (h : firstFailure (enrollSlotChecks s r slot) = some x) : doEnrollSlot (deskOf r) [slot] s = refuse s x := by
  unfold enrollSlotChecks at h
  simp only [firstFailure_cons, firstFailure_nil] at h
  unfold doEnrollSlot
  dsimp only
  rw [ownSlot_eq]
  cases hbad : badSlot s r slot with
  | true =>
    rw [if_pos hbad] at h
    simp only [if_true, Option.some.inj h]
  | false =>
    rw [hbad, if_neg (by decide)] at h
    simp only [Bool.false_eq_true, if_false]
    cases hident : (s.slot r slot.toNat).ident with
    | none =>
      rw [if_pos (by simp [hident])] at h
      simp only [ite_self, Option.some.inj h]
    | some ident =>
      simp only [hident, Option.map_some, Option.getD_some] at h
      simp only [serialOk_iff, Bool.not_not]
      refine refuse_of_check s (by simp) h fun h => ?_
      refine refuse_of_check s Iff.rfl h fun h => ?_
      refine refuse_of_check s (by simp [Option.isSome_iff_ne_none]) h fun h => ?_
      split at h
      next hfull => simp only [freeReceiver_none hfull, Option.some.inj h]
      next => cases h

theorem doReceiverRetire_refused {a b c : Byte} {x : Result}
    (h : firstFailure (receiverChecks s (num3 a b c)) = some x) : doReceiverRetire .ops [a, b, c] s = refuse s x := by
  unfold receiverChecks at h
  simp only [firstFailure_cons, firstFailure_nil] at h
  simp only [doReceiverRetire, serialOk_iff, Bool.not_not]
  refine refuse_of_check s Iff.rfl h fun h => ?_
  cases hserial : s.bySerial (num3 a b c) with
  | none =>
    rw [if_pos (by simp [hserial])] at h
    simp only [Option.some.inj h]
  | some entry =>
    obtain ⟨i, v⟩ := entry
    rw [hserial] at h
    cases hstate : v.state <;> simp [hstate] at h ⊢ <;> rw [h]

theorem doReceiverService_refused {a b c on : Byte} {x : Result}
    (h : firstFailure ((decide (1 < on.toNat), Result.badArg) :: receiverChecks s (num3 a b c)) = some x) :
    doReceiverService .ops [a, b, c, on] s = refuse s x := by
  unfold receiverChecks at h
  simp only [firstFailure_cons, firstFailure_nil] at h
  by_cases hon : 1 < on.toNat
  · rw [if_pos (by simp [hon])] at h
    simp only [doReceiverService, flagOf_of_lt hon, Option.some.inj h]
  rw [if_neg (by simp [hon])] at h
  simp only [doReceiverService, flagOf_of_not_lt hon, serialOk_iff, Bool.not_not]
  refine refuse_of_check s Iff.rfl h fun h => ?_
  cases hserial : s.bySerial (num3 a b c) with
  | none =>
    rw [if_pos (by simp [hserial])] at h
    simp only [Option.some.inj h]
  | some entry =>
    obtain ⟨i, v⟩ := entry
    rw [hserial] at h
    cases hstate : v.state <;> simp [hstate] at h ⊢ <;> rw [h]

-- The writes of the pool

/-- A command of the pool that is answered and writes one receiver record, or finds it as it is to be. -/
theorem pool_writes {s s' : State} {p : Port} {tag : Byte} {payload : List Byte} {name : CommandName} {command : Instr}
    {f : State → State × Reply} {i : Nat} {v : Option Receiver} {fields : List Byte}
    (hexec : exec command s = .next (s.command p tag name.code payload fun s => s.answer name p payload f))
    (ht : s.Takes p) (hp : name.permitted p = true) (hl : name.lengthOk payload.length = true)
    (hf : f s = (s', ⟨.ok, fields⟩)) (hs' : s' = s.setReceiver i v ∨ s' = s ∧ s.receiver i = v) :
    ∃ t, exec command s = .next t ∧
      t.receiver i = v ∧ (∀ j, j ≠ i → t.receiver j = s.receiver j) ∧
      Answered s t p tag name.code ⟨.ok, fields⟩ [] toNone ∧
      t = { s with
        receivers := t.receivers, opsPort := t.opsPort, deskAPort := t.deskAPort, deskBPort := t.deskBPort,
        feed := t.feed } := by
  refine ⟨_, hexec.trans (client_next ht hp hl hf), ?_⟩
  obtain rfl | ⟨rfl, hsame⟩ := hs'
  · refine ⟨by simp, fun j hj => by simp [receiver_setReceiver, hj], answered_after (fun q => rfl), ?_⟩
    refine (after_frame _ _ _ _ _).trans ?_
    ext <;> simp
  · refine ⟨by simpa using hsame, fun j _ => by simp, answered_after (Told.refl s'), ?_⟩
    refine (after_frame _ _ _ _ _).trans ?_
    ext <;> simp

/-- RECEIVER_SERVICE moves a STOCK or SERVICE record, or finds it where it is to be (R107). -/
theorem doReceiverService_moves {a b c : Byte} {on : Bool} {i : Nat} {v : Receiver}
    (hok : serialOk (num3 a b c) = true) (hfound : s.bySerial (num3 a b c) = some (i, v))
    (hrecord : s.receiver i = some v) (hstate : v.state = .stock ∨ v.state = .service) :
    ∃ s', doReceiverService .ops [a, b, c, if on then 0x01 else 0x00] s = (s', ⟨.ok, []⟩) ∧
      (s' = s.setReceiver i (some
          (if on then { v with state := .service }
           else { v with state := .stock, issues := if v.state = .service then 0 else v.issues })) ∨
        s' = s ∧ s.receiver i = some
          (if on then { v with state := .service }
           else { v with state := .stock, issues := if v.state = .service then 0 else v.issues })) := by
  obtain ⟨serial, state, battery, issues⟩ := v
  simp only [doReceiverService, flagOf_ite, hok, hfound]
  obtain rfl | rfl : state = .stock ∨ state = .service := hstate
  · cases on with
    | true => exact ⟨_, rfl, .inl rfl⟩
    | false => exact ⟨_, rfl, .inr ⟨rfl, hrecord⟩⟩
  · cases on with
    | true => exact ⟨_, rfl, .inr ⟨rfl, hrecord⟩⟩
    | false => exact ⟨_, rfl, .inl rfl⟩

/-- Settles O42: each refusal is decided by the first check that fails, and an accepted command is one write of a receiver
record (`pool_writes`). -/
theorem poolCommandsWrite : Obligations.PoolCommandsWrite := by
  refine ⟨fun s tag a b c on ht => ?_, fun s r tag slot ht => ?_, fun s tag a b c => ?_⟩
  · rw [← num3_eq]
    exact ⟨refusedBy_own (name := .receiverEnroll) rfl ht rfl rfl fun x hx => doReceiverEnroll_refused hx,
      refusedBy_own (name := .receiverRetire) rfl ht rfl rfl fun x hx => doReceiverRetire_refused hx,
      refusedBy_own (name := .receiverService) rfl ht rfl rfl fun x hx => doReceiverService_refused hx⟩
  · exact refusedBy_own (name := .enrollSlot) rfl ht (by cases r <;> rfl) rfl fun x hx => doEnrollSlot_refused hx
  · have hok {serial : Nat} (h1 : 1 ≤ serial) (htop : serial ≤ 16777214) : serialOk serial = true := by
      simp only [serialOk, Config.topSerial, Bool.and_eq_true]
      exact ⟨decide_eq_true h1, decide_eq_true htop⟩
    rw [← num3_eq]
    refine ⟨fun i ht h1 htop hnone ⟨hi, hfree, hlow⟩ => ?_,
      fun r slot i ident ht hfit hslot hoccupied hident h1 htop hnone ⟨hi, hfree, hlow⟩ => ?_,
      fun i v ht h1 htop hfound hstate => ?_, fun i v on ht h1 htop hfound hrecord hstate => ?_⟩
    · refine pool_writes (name := .receiverEnroll) rfl ht rfl rfl ?_ (.inl rfl)
      simp only [doReceiverEnroll, hok h1 htop, hnone, freeReceiver_some hi hfree hlow]
      rfl
    · refine pool_writes (name := .enrollSlot) rfl ht (by cases r <;> rfl) rfl ?_ (.inl rfl)
      have hbad : badSlot s r slot = false := by
        obtain ⟨hrack, hlow⟩ : s.rackFitted r = true ∧ slot.toNat < s.profile.slots := by simpa [State.slotFitted] using hfit
        exact decide_eq_false (by simp [hrack]; omega)
      simp only [doEnrollSlot, ownSlot_eq, hbad, Bool.false_eq_true, if_false, hoccupied, hident, hok h1 htop, hnone,
        freeReceiver_some hi hfree hlow]
      rfl
    · refine pool_writes (s' := s.setReceiver i none) (name := .receiverRetire) rfl ht rfl rfl ?_ (.inl rfl)
      simp only [doReceiverRetire, hok h1 htop, hfound]
      obtain hstate | hstate := hstate <;> rw [hstate] <;> rfl
    · obtain ⟨s', hdo, hs'⟩ := doReceiverService_moves (on := on) (hok h1 htop) hfound hrecord hstate
      exact pool_writes (name := .receiverService) rfl ht rfl rfl hdo hs'

end Sys2Proof.Machine
end

section
/-!
PROOFS. The classification of a credential (R144 to R147) and the opening and finding of accounts (R135, R136, R140),
settled.
-/
namespace Sys2Proof.Machine

variable {s : State}

-- The groups of the filters (R145)

/-- The groups of the `n` filters from `k` on. -/
def State.groupsFrom (s : State) (k n : Nat) : List (List Nat) :=
  (List.range' k n).foldr
    (fun k groups =>
      if (s.filter k).chain then
        match groups with
        | [] => [[k]]
        | g :: rest => (k :: g) :: rest
      else [k] :: groups) []

theorem groups_eq (s : State) : s.groups = s.groupsFrom 0 8 := by
  unfold State.groups State.groupsFrom
  exact congrArg (List.foldr _ []) List.range_eq_range'

theorem groupsFrom_succ (s : State) (k n : Nat) :
    s.groupsFrom k (n + 1) =
      if (s.filter k).chain then
        match s.groupsFrom (k + 1) n with
        | [] => [[k]]
        | g :: rest => (k :: g) :: rest
      else [k] :: s.groupsFrom (k + 1) n := by
  unfold State.groupsFrom
  rw [List.range'_succ, List.foldr_cons]

/-- Filter `e` ends the group that filter `k` is in, of the `n` filters from `k` on. -/
def GroupEnd (s : State) (k n e : Nat) : Prop :=
  k ≤ e ∧ e < k + n ∧ (∀ j, k ≤ j → j < e → (s.filter j).chain = true) ∧ (e + 1 = k + n ∨ (s.filter e).chain = false)

/-- The first group runs from the first filter to the first whose chain flag is clear, or to the last filter. -/
theorem groupsFrom_first (s : State) (k n : Nat) :
    ∃ e, GroupEnd s k (n + 1) e ∧
      s.groupsFrom k (n + 1) = List.range' k (e + 1 - k) :: s.groupsFrom (e + 1) (k + n - e) := by
  induction n generalizing k with
  | zero =>
    refine ⟨k, ⟨le_rfl, by omega, fun j h h' => by omega, .inl rfl⟩, ?_⟩
    rw [groupsFrom_succ, show k + 1 - k = 1 by omega, show k + 0 - k = 0 by omega]
    split <;> rfl
  | succ n ih =>
    by_cases hchain : (s.filter k).chain = true
    · obtain ⟨e, ⟨hk, hn, hchains, hend⟩, heq⟩ := ih (k + 1)
      refine ⟨e, ⟨by omega, by omega, fun j hj hje => ?_, by rwa [show k + (n + 1 + 1) = k + 1 + (n + 1) by omega]⟩, ?_⟩
      · by_cases hjk : j = k
        · rw [hjk, hchain]
        · exact hchains j (by omega) hje
      · rw [groupsFrom_succ, if_pos hchain, heq, show e + 1 - k = (e + 1 - (k + 1)) + 1 by omega, List.range'_succ,
          show k + (n + 1) - e = k + 1 + n - e by omega]
    · refine ⟨k, ⟨le_rfl, by omega, fun j h h' => by omega, .inr (by simpa using hchain)⟩, ?_⟩
      rw [groupsFrom_succ, if_neg hchain, show k + 1 - k = 1 by omega, show k + (n + 1) - k = n + 1 by omega]
      rfl

-- The match of a group (R146)

theorem mem_positions (f : Filter) (i : Nat) :
    i ∈ f.positions ↔ ∃ j, j < 32 ∧ f.mask.getLsbD j = true ∧ f.offset + j = i := by
  simp [Filter.positions, and_assoc]

theorem applies_iff (f : Filter) (length : Nat) :
    f.applies length = true ↔
      f.enabled = true ∧ f.mask ≠ 0 ∧ ∀ i, i < 32 → f.mask.getLsbD i = true → f.offset + i < length := by
  unfold Filter.applies
  simp only [Bool.and_eq_true, decide_eq_true_eq, List.all_eq_true, mem_positions, and_assoc]
  refine and_congr_right fun _ => and_congr_right fun _ => ⟨fun h i hi hbit => h _ ⟨i, hi, hbit, rfl⟩, ?_⟩
  rintro h _ ⟨i, hi, hbit, rfl⟩
  exact h i hi hbit

theorem select_eq (f : Filter) (credential : List Byte) :
    f.select credential =
      (List.range 32).filterMap fun i => if f.mask.getLsbD i then credential[f.offset + i]? else none := by
  unfold Filter.select Filter.positions
  rw [List.filterMap_map, List.filterMap_filter]
  rfl

/-- The last number below `n` that passes a test. -/
theorem getLast_filter_range (p : Nat → Bool) (n j : Nat) :
    ((List.range n).filter p).getLast? = some j ↔ j < n ∧ p j = true ∧ ∀ m, j < m → m < n → p m = false := by
  induction n with
  | zero => simp
  | succ n ih =>
    rw [List.range_succ, List.filter_append]
    cases hp : p n with
    | true =>
      have hlast : ((List.range n).filter p ++ [n].filter p).getLast? = some n := by simp [hp]
      rw [hlast]
      constructor
      · rintro ⟨⟩
        exact ⟨by omega, hp, fun m h h' => by omega⟩
      · rintro ⟨hj, _, habove⟩
        by_contra hne
        have hjn : j < n := by
          have : j ≠ n := fun e => hne (by rw [e])
          omega
        rw [habove n hjn (by omega)] at hp
        cases hp
    | false =>
      have hlast : (List.range n).filter p ++ [n].filter p = (List.range n).filter p := by simp [hp]
      rw [hlast, ih]
      constructor
      · rintro ⟨hj, hpj, habove⟩
        refine ⟨by omega, hpj, fun m hm hm' => ?_⟩
        by_cases hmn : m = n
        · rw [hmn, hp]
        · exact habove m hm (by omega)
      · rintro ⟨hj, hpj, habove⟩
        refine ⟨?_, hpj, fun m hm hm' => habove m hm (by omega)⟩
        by_contra hge
        rw [show j = n by omega, hp] at hpj
        cases hpj

/-- The highest selected position is that of the mask's highest bit. -/
theorem highest_iff (f : Filter) (i : Nat) :
    f.highest = some i ↔
      ∃ j, j < 32 ∧ f.mask.getLsbD j = true ∧ (∀ m, j < m → f.mask.getLsbD m = false) ∧ f.offset + j = i := by
  unfold Filter.highest Filter.positions
  rw [List.getLast?_map, Option.map_eq_some_iff]
  refine exists_congr fun j => ?_
  rw [getLast_filter_range, and_assoc, and_assoc]
  refine and_congr_right fun hj => and_congr_right fun _ => and_congr_left fun _ => ?_
  refine forall_congr' fun m => forall_congr' fun hm => ⟨fun h => ?_, fun h _ => h⟩
  by_cases hm32 : m < 32
  · exact h hm32
  · exact BitVec.getLsbD_of_ge _ _ (by omega)

/-- A group gives its last member's class if it matches, and nothing if it does not (R146, R147). -/
theorem groupClass_range (s : State) (credential : List Byte) {k e : Nat} (hke : k ≤ e) :
    (GroupMatches s k e credential →
      s.groupClass credential (List.range' k (e + 1 - k)) = some (s.filter e).tariffClass) ∧
    (¬ GroupMatches s k e credential → s.groupClass credential (List.range' k (e + 1 - k)) = none) := by
  have hlast : (List.range' k (e + 1 - k)).getLast? = some e := by
    rw [show e + 1 - k = (e - k) + 1 by omega, List.range'_concat, List.getLast?_concat]
    congr 1
    omega
  have hmem (j : Nat) : j ∈ List.range' k (e + 1 - k) ↔ k ≤ j ∧ j ≤ e := by
    rw [List.mem_range'_1]
    omega
  have hmatch : ((List.range' k (e + 1 - k)).all (fun j => (s.filter j).applies credential.length) &&
      crc16 ((List.range' k (e + 1 - k)).flatMap fun j => (s.filter j).select credential) = (s.filter e).compare &&
      ((s.filter e).highest.bind fun i => credential[i]?) = some (s.filter e).lastByte) = true ↔
      GroupMatches s k e credential := by
    unfold GroupMatches
    simp only [Bool.and_eq_true, List.all_eq_true, hmem, applies_iff, select_eq, decide_eq_true_eq, and_assoc,
      Option.bind_eq_some_iff, highest_iff, and_imp]
    refine and_congr_right fun _ => and_congr_right fun _ => ?_
    constructor
    · rintro ⟨_, ⟨j, hj, hbit, habove, rfl⟩, hbyte⟩
      exact ⟨j, hj, hbit, habove, hbyte⟩
    · rintro ⟨j, hj, hbit, habove, hbyte⟩
      exact ⟨_, ⟨j, hj, hbit, habove, rfl⟩, hbyte⟩
  unfold State.groupClass
  rw [hlast]
  exact ⟨fun h => if_pos (hmatch.2 h), fun h => if_neg (hmatch.not.2 h)⟩

/-- The groups from filter `k` on that a credential is tried with. -/
theorem isGroup_iff {k e : Nat} (hk : k ≤ 7) (hstart : k = 0 ∨ (s.filter (k - 1)).chain = false) :
    GroupEnd s k (8 - k) e ↔ IsGroup s k e := by
  unfold GroupEnd IsGroup
  rw [show k + (8 - k) = 8 by omega]
  constructor
  · rintro ⟨hke, he, hchains, hend⟩
    exact ⟨hke, by omega, hstart, hchains, hend.imp_left (by omega)⟩
  · rintro ⟨hke, he, _, hchains, hend⟩
    exact ⟨hke, by omega, hchains, hend.imp_left (by omega)⟩

/-- A group's first filter gives its last. -/
theorem isGroup_unique {k e d : Nat} (h : IsGroup s k e) (h' : IsGroup s k d) : e = d := by
  obtain ⟨hke, he, _, hchains, hend⟩ := h
  obtain ⟨hkd, hd, _, hchains', hend'⟩ := h'
  by_contra hne
  obtain hlt | hlt := Nat.lt_or_gt_of_ne hne
  · obtain h7 | hclear := hend
    · omega
    · rw [hchains' e hke hlt] at hclear
      cases hclear
  · obtain h7 | hclear := hend'
    · omega
    · rw [hchains d hkd hlt] at hclear
      cases hclear

/-- The filters of a group begin no other. -/
theorem isGroup_after {k e j d : Nat} (h : IsGroup s k e) (h' : IsGroup s j d) (hkj : k < j) : e < j := by
  obtain ⟨_, _, _, hchains, _⟩ := h
  obtain ⟨_, _, hstart, _, _⟩ := h'
  by_contra hle
  obtain h0 | hclear := hstart
  · omega
  · rw [hchains (j - 1) (by omega) (by omega)] at hclear
    cases hclear

/-- The class of a credential among the groups from filter `k` on. -/
theorem findClass (s : State) (credential : List Byte) (n k : Nat) (hkn : k + n = 8)
    (hstart : k ≤ 7 → k = 0 ∨ (s.filter (k - 1)).chain = false) :
    (∀ a e, IsGroup s a e → k ≤ a → GroupMatches s a e credential →
      (∀ j d, IsGroup s j d → k ≤ j → j < a → ¬ GroupMatches s j d credential) →
      (s.groupsFrom k n).findSome? (fun g => s.groupClass credential g) = some (s.filter e).tariffClass) ∧
    ((∀ a e, IsGroup s a e → k ≤ a → ¬ GroupMatches s a e credential) →
      (s.groupsFrom k n).findSome? (fun g => s.groupClass credential g) = none) := by
  induction n using Nat.strong_induction_on generalizing k with
  | _ n ih =>
    match n with
    | 0 =>
      exact ⟨fun a e ⟨hae, he, _⟩ hka _ _ => by omega, fun _ => rfl⟩
    | n + 1 =>
      obtain ⟨e₀, hend, heq⟩ := groupsFrom_first s k n
      rw [show n + 1 = 8 - k by omega] at hend
      have hfirst : IsGroup s k e₀ := (isGroup_iff (by omega) (hstart (by omega))).1 hend
      have ⟨hke, he7, _, _, hclear⟩ := hfirst
      have hclass := groupClass_range s credential hke
      obtain ⟨hmatched, hunmatched⟩ := ih (k + n - e₀) (by omega) (e₀ + 1) (by omega) fun h =>
        .inr (hclear.resolve_left (by omega))
      rw [heq, List.findSome?_cons]
      constructor
      · intro a e hgroup hka hmatches hbefore
        by_cases hak : a = k
        · subst hak
          rw [isGroup_unique hgroup hfirst] at hmatches ⊢
          rw [hclass.1 hmatches]
        · rw [hclass.2 (hbefore k e₀ hfirst le_rfl (by omega))]
          exact hmatched a e hgroup (isGroup_after hfirst hgroup (by omega)) hmatches
            fun j d hj hle hlt => hbefore j d hj (by omega) hlt
      · intro hnone
        rw [hclass.2 (hnone k e₀ hfirst le_rfl)]
        exact hunmatched fun a e hgroup hle => hnone a e hgroup (by omega)

theorem classify_eq (s : State) (credential : List Byte) :
    s.classify credential = ((s.groupsFrom 0 8).findSome? fun g => s.groupClass credential g).getD 0 := by
  rw [State.classify, groups_eq]

-- Opening and finding (R135, R136, R140)

theorem exec_accountOpen (s : State) (p : Port) (tag : Byte) (payload : List Byte) :
    exec (.accountOpen p tag payload) s =
      .next (s.command p tag CommandName.accountOpen.code payload fun s =>
        s.answer .accountOpen p payload (doAccountOpen p payload)) := rfl

theorem exec_accountFind (s : State) (p : Port) (tag : Byte) (payload : List Byte) :
    exec (.accountFind p tag payload) s =
      .next (s.command p tag CommandName.accountFind.code payload fun s =>
        s.answer .accountFind p payload (doAccountFind p payload)) := rfl

theorem accountOpen_permitted (r : Rack) : CommandName.accountOpen.permitted (deskOf r) = true := by cases r <;> rfl

/-- A FREE account that opens changes its reserved view (R193). -/
theorem opened_view {a : Account} (h : a.account = none) (o : OpenAccount) :
    ({ a with account := some o } : Account).view ≠ a.view := by
  unfold Account.view
  rw [h]
  exact fun e => Bool.noConfusion (show true = false from congrArg AccountView.opened e)

/-- Settles O43: the classification is a search along the groups (`findClass`), and an opening is one write of the lowest
record that can be opened. -/
theorem accountsOpen : Obligations.AccountsOpen := by
  refine ⟨fun s credential => ⟨fun k e hgroup hmatches hbefore => ?_, fun hnone => ?_⟩,
    fun s p tag credential ht h16 h64 => ⟨fun r i hp hunknown hi hopen hlow => ?_, fun r ref o hp hknown => ?_,
      fun hunknown => ?_, fun r hp hunknown hfull => ?_, fun ref o hknown => ?_⟩⟩
  · rw [classify_eq, (findClass s credential 8 0 rfl fun _ => .inl rfl).1 k e hgroup (Nat.zero_le k) hmatches
      fun j d hj _ hjk => hbefore j d hj hjk]
    rfl
  · rw [classify_eq, (findClass s credential 8 0 rfl fun _ => .inl rfl).2 fun a e hgroup _ => hnone a e hgroup]
    rfl
  all_goals have hl : (decide (16 ≤ credential.length) && decide (credential.length ≤ 64)) = true := by simp [h16, h64]
  · subst hp
    intro cls
    have hfirst : firstFrom s.canOpen 1024 0 = some i :=
      firstFrom_eq_some (Nat.zero_le i) (by omega) hopen fun j _ hj => hlow j hj
    have hdo : doAccountOpen (deskOf r) credential s =
        (s.setOpen ⟨i, (s.account i).generation⟩ (s.opening cls r (crc16 credential)),
          ⟨.ok, refBytes ⟨i, (s.account i).generation⟩ ++ byte1 cls ++ byte2 (s.tariff cls).deposit⟩) := by
      simp only [doAccountOpen, ownRack_deskOf, hunknown, hfirst]
      rfl
    have hfree : (s.account i).account = none := by
      have h := hopen
      rw [State.canOpen, Bool.and_eq_true] at h
      exact Option.isNone_iff_eq_none.1 h.1
    have htold := told_setAccount s i { s.account i with account := some (s.opening cls r (crc16 credential)) }
    rw [if_neg (opened_view hfree _)] at htold
    refine ⟨_, (exec_accountOpen s (deskOf r) tag credential).trans
      (client_next ht (accountOpen_permitted r) hl hdo), ?_, fun j hj => ?_, answered_after htold, ?_⟩
    · simp [State.setOpen, State.opening, State.now]
    · simp [State.setOpen, account_setAccount, hj]
    · refine (after_frame _ _ _ _ _).trans ?_
      ext <;> simp [State.setOpen]
  · subst hp
    have hdo : doAccountOpen (deskOf r) credential s =
        (s, ⟨.exists, refBytes ref ++ byte1 o.tariffClass⟩) := by
      simp only [doAccountOpen, ownRack_deskOf, hknown]
    exact answers_own s (exec_accountOpen s (deskOf r) tag credential) ht (accountOpen_permitted r) hl hdo
  · exact answers_own s (exec_accountFind s p tag credential) ht rfl hl (by simp only [doAccountFind, hunknown]; rfl)
  · subst hp
    have hnone : firstFrom s.canOpen 1024 0 = none := firstFrom_eq_none fun j _ hj => hfull j (by omega)
    exact answers_own s (exec_accountOpen s (deskOf r) tag credential) ht (accountOpen_permitted r) hl (by
      simp only [doAccountOpen, ownRack_deskOf, hunknown, hnone]
      rfl)
  · exact answers_own s (exec_accountFind s p tag credential) ht rfl hl (by simp only [doAccountFind, hknown]; rfl)

end Sys2Proof.Machine
end

section
/-!
PROOFS. The installation profile's commands (R203, R205), settled.
-/
namespace Sys2Proof.Machine

-- The stored fields and the fields to be clamped (R203, R208)

/-- Fifteen bytes, no more and no fewer, carry the fields of a profile (R208). -/
theorem profileFields_isNone (bytes : List Byte) : (profileFields bytes).isNone = decide (bytes.length ≠ 15) := by
  by_cases hlength : bytes.length = 15
  · rw [decide_eq_false (by simpa using hlength)]
    match bytes, hlength with
    | [_, _, _, _, _, _, _, _, _, _, _, _, _, _, _], _ => rfl
  · rw [decide_eq_true hlength]
    unfold profileFields
    split
    · exact absurd rfl hlength
    · rfl

theorem storedFields_isNone (image : StoreImage) :
    (storedFields image).isNone = decide (crc16 image.bytes ≠ image.check ∨ image.bytes.length ≠ 15) := by
  unfold storedFields
  by_cases hcheck : crc16 image.bytes = image.check
  · rw [if_pos hcheck, profileFields_isNone]
    exact decide_eq_decide.2 (by simp [hcheck])
  · rw [if_neg hcheck]
    exact (decide_eq_true (.inl hcheck)).symm

/-- A sum of distinct powers of 2 has the bits of its terms. -/
theorem bits_sum (p : Nat → Prop) [DecidablePred p] (m : Nat) :
    ((List.range m).map fun n => if p n then 0 else 2 ^ n).sum < 2 ^ m ∧
      ∀ n, n < m → ((List.range m).map fun n => if p n then 0 else 2 ^ n).sum.testBit n = decide (¬ p n) := by
  induction m with
  | zero => exact ⟨Nat.one_pos, fun n h => by omega⟩
  | succ m ih =>
    obtain ⟨hlow, hbits⟩ := ih
    rw [List.range_succ, List.map_append, List.sum_append, List.map_singleton, List.sum_singleton]
    by_cases hp : p m
    · rw [if_pos hp, Nat.add_zero]
      refine ⟨by rw [Nat.pow_succ]; omega, fun n hn => ?_⟩
      by_cases hnm : n = m
      · rw [hnm, Nat.testBit_lt_two_pow hlow, decide_eq_false (by simpa using hp)]
      · exact hbits n (by omega)
    · rw [if_neg hp, Nat.add_comm]
      refine ⟨by rw [Nat.pow_succ]; omega, fun n hn => ?_⟩
      by_cases hnm : n = m
      · rw [hnm, Nat.testBit_two_pow_add_eq, Nat.testBit_lt_two_pow hlow, decide_eq_true hp]
        rfl
      · rw [Nat.testBit_two_pow_add_gt (by omega)]
        exact hbits n (by omega)

/-- A value is clamped when it is out of its range (R203). -/
theorem clampField_eq_iff {v low high : Nat} (h : low ≤ high) : clampField v (low, high) = v ↔ ¬ (v < low ∨ high < v) := by
  unfold clampField
  dsimp only
  omega

theorem range_le {n low high : Nat} (h : profileRanges[n]? = some (low, high)) : low ≤ high := by
  have hall : ∀ range ∈ profileRanges, range.1 ≤ range.2 := by decide
  exact hall _ (List.mem_of_getElem? h)

theorem clampMask_bits {bytes : List Byte} {values : List Nat} (h : profileFields bytes = some values) :
    clampMask bytes < 8192 ∧ ∀ n v low high, values[n]? = some v → profileRanges[n]? = some (low, high) →
      (clampMask bytes).testBit n = decide (v < low ∨ high < v) := by
  obtain ⟨hlow, hbits⟩ := bits_sum (fun n => (clampFields values)[n]? = values[n]?) 13
  rw [clampMask, h]
  refine ⟨hlow, fun n v low high hv hrange => ?_⟩
  have hn : n < 13 := (List.getElem?_eq_some_iff.1 hrange).1
  have hclamped : (clampFields values)[n]? = some (clampField v (low, high)) := by
    rw [clampFields, List.getElem?_zipWith, hv, hrange]
  refine (hbits n hn).trans (decide_eq_decide.2 ?_)
  rw [hclamped, hv, Option.some_inj, clampField_eq_iff (range_le hrange), not_not]

-- The commands (R205)

/-- A command that may be given in INSTALL is carried out by its own rule in either run state of a powered part. -/
theorem powered_next {s s' : State} {p : Port} {tag : Byte} {payload : List Byte} {name : CommandName}
    {f : State → State × Reply} {r : Reply} (hr : s.run ≠ .off) (hi : (s.port p).inHand = none)
    (hin : name.inInstall p = true) (hp : name.permitted p = true) (hl : name.lengthOk payload.length = true)
    (hf : f s = (s', r)) :
    s.command p tag name.code payload (fun s => s.answer name p payload f) = s'.after p tag name.code r := by
  have hown : s.answer name p payload f = (s', r) := by simp [State.answer, hin, hp, hl, hf]
  rw [command_takes tag name.code payload _ hr hi, take_eq, hown]
  rfl

/-- The profile store with an image, and the operand of a failing store. -/
def State.stored (s : State) (failure : Option StoreImage) (image : StoreImage) : State :=
  { s with storeFailure := failure, store := image }

theorem exec_profileWrite {s s' : State} {tag : Byte} {fields : List Byte} {failure : Option StoreImage} {r : Reply}
    (hr : s.run ≠ .off) (hi : (s.port .ops).inHand = none) (hl : fields.length = 15)
    (hf : doProfileWrite .ops fields (s.stored failure s.store) = (s', r)) :
    exec (.profileWrite .ops tag fields failure) s = .next (s'.after .ops tag 0x23 r) :=
  congrArg Host.Outcome.next (powered_next (s := s.stored failure s.store) (name := .profileWrite) hr hi rfl rfl
    (by rw [hl]; rfl) hf)

theorem told_stored (s : State) (failure : Option StoreImage) (image : StoreImage) :
    Told s (s.stored failure image) [] toNone := fun p => by cases p <;> rfl

theorem stored_frame (s : State) (failure : Option StoreImage) (image : StoreImage) (tag : Byte) (r : Reply) :
    let t := (s.stored failure image).after .ops tag 0x23 r
    t = { s with
      store := t.store, storeFailure := t.storeFailure, opsPort := t.opsPort, deskAPort := t.deskAPort,
      deskBPort := t.deskBPort, feed := t.feed } := by
  refine (after_frame (s.stored failure image) .ops tag 0x23 r).trans ?_
  simp only [after_store, after_storeFailure]
  rfl

/-- In INSTALL the store is written and read back (R205). -/
theorem doProfileWrite_install {s : State} (h : s.run = .install) (fields : List Byte) (failure : Option StoreImage) :
    doProfileWrite .ops fields (s.stored failure s.store) =
      (s.stored failure (failure.getD ⟨fields, crc16 fields⟩),
        if failure.getD ⟨fields, crc16 fields⟩ = ⟨fields, crc16 fields⟩ then ⟨.ok, byte2 (clampMask fields)⟩
        else ⟨.wrongState, [0x0F]⟩) := if_pos h

/-- Settles O54: each command is its own rule and the reply; the mask's bits are those of the clamped fields. -/
theorem profileCommandsAct : Obligations.ProfileCommandsAct := by
  intro s tag hr hi frame blank
  refine ⟨⟨_, congrArg Host.Outcome.next (powered_next (name := .profileRead) hr hi rfl rfl rfl rfl), ?_, by simp, ?_⟩,
    fun fields values failure hl hvalues => ⟨fun hinstall htakes => ?_, fun found hinstall hfails hne => ?_, fun hhall => ?_⟩⟩
  · refine (after_frame _ _ _ _ _).trans ?_
    simp only [after_store, after_storeFailure]
  · have hblank : blank = (storedFields s.store).isNone := (storedFields_isNone s.store).symm
    rw [hblank]
    exact answered_after (Told.refl s)
  · have hfound : failure.getD ⟨fields, crc16 fields⟩ = ⟨fields, crc16 fields⟩ := by
      cases hfailure : failure with
      | none => rfl
      | some found => exact htakes found hfailure
    have hdo := doProfileWrite_install hinstall fields failure
    rw [hfound, if_pos rfl] at hdo
    obtain ⟨hlow, hbits⟩ := clampMask_bits hvalues
    exact ⟨_, clampMask fields, exec_profileWrite hr hi hl hdo, stored_frame s failure _ tag _, by simp [State.stored],
      hlow, hbits, answered_after (told_stored s failure _)⟩
  · subst hfails
    have hdo := doProfileWrite_install hinstall fields (some found)
    rw [Option.getD_some, if_neg hne] at hdo
    exact ⟨_, exec_profileWrite hr hi hl hdo, stored_frame s _ _ tag _, by simp [State.stored],
      answered_after (told_stored s _ found)⟩
  · have hdo : doProfileWrite .ops fields (s.stored failure s.store) = (s.stored failure s.store, ⟨.wrongState, []⟩) :=
      if_neg (show ¬ s.run = .install by rw [hhall]; decide)
    exact ⟨_, exec_profileWrite hr hi hl hdo, stored_frame s _ _ tag _, by simp [State.stored],
      answered_after (told_stored s _ s.store)⟩

end Sys2Proof.Machine
end

section
/-!
PROOFS. The layer of the rack engines: the work that an engine finds and chooses (R110), how a row of the dock bus ends
(R109), and the context of one slot through the steps of an outcome (R111, R112).
-/
namespace Sys2Proof.Machine

variable (s : State)

-- What an engine that looks for work leaves alone

theorem kickRack_read {α : Type} (read : State → α) (r : Rack) (hread : ∀ e, read (s.setRack r e) = read s) :
    read (s.kickRack r) = read s := by
  obtain ⟨bus, due, h⟩ := kickRack_eq s r
  rw [h, hread]

@[simp] theorem kickRack_language (r : Rack) (l : Nat) : (s.kickRack r).language l = s.language l :=
  kickRack_read s (·.language l) r (by simp)

@[simp] theorem kickRack_receiver (r : Rack) (i : Nat) : (s.kickRack r).receiver i = s.receiver i :=
  kickRack_read s (·.receiver i) r (by simp)

@[simp] theorem kickRack_account (r : Rack) (i : Nat) : (s.kickRack r).account i = s.account i :=
  kickRack_read s (·.account i) r (by simp)

@[simp] theorem kickRack_buffer (r x : Rack) : (s.kickRack r).buffer x = s.buffer x :=
  kickRack_read s (·.buffer x) r (by simp)

@[simp] theorem kickRack_report (r : Rack) (k : Nat) : (s.kickRack r).report k = s.report k :=
  kickRack_read s (·.report k) r (by simp)

@[simp] theorem kickRack_receivers (r : Rack) : (s.kickRack r).receivers = s.receivers :=
  kickRack_read s (·.receivers) r (by simp)

@[simp] theorem kickRack_accounts (r : Rack) : (s.kickRack r).accounts = s.accounts :=
  kickRack_read s (·.accounts) r (by simp)

@[simp] theorem kickRack_languages (r : Rack) : (s.kickRack r).languages = s.languages :=
  kickRack_read s (·.languages) r (by simp)

@[simp] theorem kickRack_reports (r : Rack) : (s.kickRack r).reports = s.reports :=
  kickRack_read s (·.reports) r (by simp)

-- The work of an engine (R110)

/-- The arrival or return work of one slot (R110, step 2). -/
def Slot.arrivalWork (v : Slot) (n : Nat) : Option Transaction :=
  match v.state with
  | .identifying => some (if v.ident.isNone then .ident n else .markRepair n)
  | .returning => some (.markReturn n)
  | .empty | .arriving | .occupied | .issuing | .held | .departing | .faulted => none

theorem arrivalWork_eq (r : Rack) :
    s.arrivalWork r = (List.range 32).findSome? fun n => (s.slot r n).arrivalWork n := rfl

theorem slotArrivalWork_isSome (v : Slot) (n : Nat) :
    (v.arrivalWork n).isSome = decide (v.state = .identifying ∨ v.state = .returning) := by
  unfold Slot.arrivalWork
  cases v.state <;> rfl

/-- The first that gives something is the first of those that do. -/
theorem findSome_eq_head_filter {f : Nat → Option Transaction} {p : Nat → Bool} (h : ∀ n, (f n).isSome = p n)
    (l : List Nat) : l.findSome? f = (l.filter p).head?.bind f := by
  induction l with
  | nil => rfl
  | cons n rest ih =>
    cases hn : f n with
    | none =>
      have hp : p n = false := by rw [← h n, hn]; rfl
      simp [hn, hp, ih]
    | some t =>
      have hp : p n = true := by rw [← h n, hn]; rfl
      simp [hn, hp]

/-- The work of R110 is the model's: an arrival or a return first, and then the head issue's step. -/
theorem workOf_eq (r : Rack) : workOf s r = (s.arrivalWork r).or (s.issueWork r) := by
  have harrival := findSome_eq_head_filter (fun n => slotArrivalWork_isSome (s.slot r n) n) (List.range 32)
  rw [arrivalWork_eq, harrival]
  unfold workOf State.issueWork
  cases harr : (List.range 32).filter fun n => (s.slot r n).state = .identifying ∨ (s.slot r n).state = .returning with
  | nil =>
    cases (s.rack r).queue with
    | nil => rfl
    | cons q rest => cases hq : q.preset <;> simp [hq]
  | cons n rest =>
    have hstate : (s.slot r n).state = .identifying ∨ (s.slot r n).state = .returning := by
      have hmem : n ∈ (List.range 32).filter _ := harr ▸ List.mem_cons_self
      simpa using (List.mem_filter.mp hmem).2
    rcases hstate with hstate | hstate
    · cases hident : (s.slot r n).ident <;> simp [Slot.arrivalWork, hstate, hident]
    · simp [Slot.arrivalWork, hstate]

variable {s}

/-- The work of a rack reads its slots, its queue and the languages. -/
theorem workOf_congr {t : State} {r : Rack} (hslot : ∀ n, t.slot r n = s.slot r n)
    (hqueue : (t.rack r).queue = (s.rack r).queue) (hlanguage : ∀ l, t.language l = s.language l) :
    workOf t r = workOf s r := by
  simp only [workOf, hslot, hqueue, hlanguage]

/-- The choice of an idle engine (R110, R112). -/
theorem chosen_chooseWork {r : Rack} (hidle : (s.rack r).bus = .idle) : Chosen (s.chooseWork r) r (s.rack r).due := by
  have hwork : workOf (s.chooseWork r) r = (s.arrivalWork r).or (s.issueWork r) := by
    obtain ⟨bus, due, h⟩ := chooseWork_eq s r
    rw [h, ← workOf_eq]
    exact workOf_congr (fun n => by rw [slot_setRack, if_pos rfl]; rfl) (by rw [rack_setRack_same]) fun l => by simp
  unfold Chosen
  rw [hwork]
  unfold State.chooseWork
  cases harrival : s.arrivalWork r with
  | some w => simp [bus_setBus]
  | none =>
    cases hissue : s.issueWork r with
    | some w => simp [bus_setBus]
    | none => cases hdue : (s.rack r).due <;> simp [hidle, hdue]

/-- An engine with an idle bus chooses, on a fitted rack (R110, R111). -/
theorem chosen_kickRack {r : Rack} (hfit : s.rackFitted r = true) (hidle : (s.rack r).bus = .idle) :
    Chosen (s.kickRack r) r (s.rack r).due := by
  have hkick : s.kickRack r = s.chooseWork r := if_pos (by simp [hfit, hidle])
  rw [hkick]
  exact chosen_chooseWork hidle

/-- The choice is read from the rack and the languages. -/
theorem chosen_congr {t u : State} {r : Rack} {due : List Nat} (hrack : u.rack r = t.rack r)
    (hlanguage : ∀ l, u.language l = t.language l) (h : Chosen t r due) : Chosen u r due := by
  unfold Chosen at h ⊢
  rwa [workOf_congr (s := t) (fun n => by unfold State.slot; rw [hrack]) (by rw [hrack]) hlanguage, hrack]

-- The end of a transaction (R109)

/-- The state when the transaction on slot `n` has ended: the bus is idle, the slot's retry mark clear (R109). -/
def State.endedAt (s : State) (r : Rack) (n : Nat) : State :=
  (s.setBus r .idle).setSlot r n { s.slot r n with retry := false }

/-- The row of a DONE or a NO_ANSWER of the transaction in flight (R109, R110). -/
theorem dock_next {i : Instr} {r : Rack} {k : Transaction} {answers : Transaction → Bool}
    {own : Transaction → State → State} {lineFault : Bool}
    (hi : exec i s = .next (s.hallEvent fun s => s.dockEnd r answers lineFault own)) (h : s.InFlight r k)
    (hfault : lineFault = false) (ha : answers k = true) :
    exec i s = .next ((own k (s.endedAt r k.slot)).kickRack r).feedWork := by
  subst hfault
  exact event_next hi h.1 (dockEnd_outcome h.2 ha)

theorem endedAt_slot (r : Rack) (n : Nat) : (s.endedAt r n).slot r n = { s.slot r n with retry := false } := by
  simp [State.endedAt]

variable (s)

@[simp] theorem endedAt_language (r : Rack) (n : Nat) (l : Nat) : (s.endedAt r n).language l = s.language l := by
  simp [State.endedAt]

@[simp] theorem endedAt_receiver (r : Rack) (n : Nat) (i : Nat) : (s.endedAt r n).receiver i = s.receiver i := by
  simp [State.endedAt]

@[simp] theorem endedAt_account (r : Rack) (n : Nat) (i : Nat) : (s.endedAt r n).account i = s.account i := by
  simp [State.endedAt]

@[simp] theorem endedAt_report (r : Rack) (n : Nat) (k : Nat) : (s.endedAt r n).report k = s.report k := by
  simp [State.endedAt]

@[simp] theorem endedAt_buffer (r : Rack) (n : Nat) (x : Rack) : (s.endedAt r n).buffer x = s.buffer x := by
  simp [State.endedAt]

@[simp] theorem endedAt_bySerial (r : Rack) (n : Nat) (k : Nat) : (s.endedAt r n).bySerial k = s.bySerial k := by
  simp [State.endedAt]

@[simp] theorem endedAt_openAccount (r : Rack) (n : Nat) (ref : AccountRef) :
    (s.endedAt r n).openAccount ref = s.openAccount ref := by
  simp [State.endedAt]

@[simp] theorem endedAt_receivers (r : Rack) (n : Nat) : (s.endedAt r n).receivers = s.receivers := by simp [State.endedAt]

@[simp] theorem endedAt_accounts (r : Rack) (n : Nat) : (s.endedAt r n).accounts = s.accounts := by simp [State.endedAt]

@[simp] theorem endedAt_languages (r : Rack) (n : Nat) : (s.endedAt r n).languages = s.languages := by simp [State.endedAt]

@[simp] theorem endedAt_reports (r : Rack) (n : Nat) : (s.endedAt r n).reports = s.reports := by simp [State.endedAt]

@[simp] theorem endedAt_profile (r : Rack) (n : Nat) : (s.endedAt r n).profile = s.profile := by simp [State.endedAt]

@[simp] theorem endedAt_minute (r : Rack) (n : Nat) : (s.endedAt r n).minute = s.minute := by simp [State.endedAt]

@[simp] theorem endedAt_day (r : Rack) (n : Nat) : (s.endedAt r n).day = s.day := by simp [State.endedAt]

@[simp] theorem endedAt_now (r : Rack) (n : Nat) : (s.endedAt r n).now = s.now := by simp [State.endedAt]

variable {s}

theorem told_endedAt (r : Rack) (n : Nat) : Told s (s.endedAt r n) [] toNone :=
  .of_ports fun p => by simp [State.endedAt]

-- One slot through the steps of an outcome

/-- The slots due after slot `n` left the probed states, or did not (R112). -/
def State.dueUnless (s : State) (r : Rack) (n : Nat) (probed : Bool) : List Nat :=
  if probed then (s.rack r).due else setDel n (s.rack r).due

/-- The states listed by R112 are the probed ones. -/
theorem contains_eq_probed (k : SlotState) :
    [SlotState.empty, .arriving, .occupied, .departing, .issuing, .held].contains k = k.probed := by
  cases k <;> rfl

/-- The states of `dueAfter` that keep a due mark are the probed ones. -/
theorem dueAfter_eq (r : Rack) (n : Nat) (states : List SlotState) :
    dueAfter s r n states = s.dueUnless r n (states.all SlotState.probed) := by
  simp only [dueAfter, State.dueUnless, setDel, contains_eq_probed]

theorem setDel_setDel (n : Nat) (l : List Nat) : setDel n (setDel n l) = setDel n l := by
  simp [setDel, List.filter_filter]

/-- From `s` to `t` a rack engine with an idle bus worked on slot `n` alone: the slot is `v`, the queue as given, and the slot
is still due if it was and never left the probed states. -/
structure Docked (s t : State) (r : Rack) (n : Nat) (v : Slot) (probed : Bool) (queue : List QueuedIssue) : Prop where
  slot : t.slot r n = v
  slots : ∀ m, m ≠ n → t.slot r m = s.slot r m
  queue : (t.rack r).queue = queue
  bus : (t.rack r).bus = .idle
  due : (t.rack r).due = s.dueUnless r n probed
  others : ∀ x, x ≠ r → t.rack x = s.rack x
  profile : t.profile = s.profile

section
variable {t u : State} {r : Rack} {n : Nat} {v : Slot} {probed : Bool} {queue : List QueuedIssue}

theorem docked_setBus (s : State) (r : Rack) (n : Nat) :
    Docked s (s.setBus r .idle) r n (s.slot r n) true (s.rack r).queue where
  slot := slot_setBus s r r .idle n
  slots m _ := slot_setBus s r r .idle m
  queue := queue_setBus s r r .idle
  bus := by simp [bus_setBus]
  due := due_setBus s r r .idle
  others x hx := by simp [State.setBus, rack_setRack, hx]
  profile := by simp

theorem Docked.setSlot (h : Docked s t r n v probed queue) (w : Slot) :
    Docked s (t.setSlot r n w) r n w (probed && w.state.probed) queue where
  slot := slot_setSlot_same t r n w
  slots m hm := by rw [slot_setSlot, if_neg fun e => hm e.2, h.slots m hm]
  queue := by rw [queue_setSlot, h.queue]
  bus := by rw [bus_setSlot, h.bus]
  due := by
    rw [due_setSlot, h.due]
    cases probed <;> cases w.state.probed <;> simp [State.dueUnless, setDel_setDel]
  others x hx := by simp [State.setSlot, rack_setRack, hx, h.others x hx]
  profile := by simp [h.profile]

theorem docked_endedAt (s : State) (r : Rack) (n : Nat) :
    Docked s (s.endedAt r n) r n { s.slot r n with retry := false } (s.slot r n).state.probed (s.rack r).queue :=
  (docked_setBus s r n).setSlot _

/-- A step that leaves the rack engines and the profile as they were. -/
theorem Docked.same (h : Docked s t r n v probed queue) (hrack : ∀ x, u.rack x = t.rack x)
    (hprofile : u.profile = t.profile) : Docked s u r n v probed queue where
  slot := by unfold State.slot; rw [hrack]; exact h.slot
  slots m hm := by unfold State.slot; rw [hrack]; exact h.slots m hm
  queue := by rw [hrack, h.queue]
  bus := by rw [hrack, h.bus]
  due := by rw [hrack, h.due]
  others x hx := by rw [hrack, h.others x hx]
  profile := by rw [hprofile, h.profile]

theorem Docked.setQueue (h : Docked s t r n v probed queue) (queue' : List QueuedIssue) :
    Docked s (t.setRack r { t.rack r with queue := queue' }) r n v probed queue' where
  slot := by rw [slot_setRack, if_pos rfl]; exact h.slot
  slots m hm := by rw [slot_setRack, if_pos rfl]; exact h.slots m hm
  queue := by rw [rack_setRack_same]
  bus := by rw [rack_setRack_same]; exact h.bus
  due := by rw [rack_setRack_same]; exact h.due
  others x hx := by rw [rack_setRack, if_neg hx]; exact h.others x hx
  profile := by simp [h.profile]

/-- What stands when the engine has chosen and the feed link has gone on. -/
structure Finished (s t : State) (r : Rack) (n : Nat) (v : Slot) (states : List SlotState) (queue : List QueuedIssue) :
    Prop where
  slot : t.slot r n = v
  slots : ∀ m, m ≠ n → t.slot r m = s.slot r m
  queue : (t.rack r).queue = queue
  others : ∀ x, x ≠ r → t.rack x = s.rack x
  chosen : s.rackFitted r = true → Chosen t r (dueAfter s r n states)

theorem Docked.finish (h : Docked s t r n v probed queue) {states : List SlotState}
    (hstates : states.all SlotState.probed = probed) : Finished s (t.kickRack r).feedWork r n v states queue where
  slot := by simpa using h.slot
  slots m hm := by simpa using h.slots m hm
  queue := by simpa using h.queue
  others x hx := by rw [feedWork_rack, kickRack_rack_ne t hx, h.others x hx]
  chosen hfit := by
    have hfit : t.rackFitted r = true := by simpa [State.rackFitted, h.profile] using hfit
    rw [dueAfter_eq, hstates, ← h.due]
    exact chosen_congr (feedWork_rack _ r) (feedWork_language _) (chosen_kickRack hfit h.bus)

end

/-- The choice of work and the feed link tell nothing. -/
theorem Told.kicked {s t : State} {rs : List RecordName} {ns : Port → List Notice} (h : Told s t rs ns) (r : Rack) :
    Told s (t.kickRack r).feedWork rs ns := (h.of_same_ports (kickRack_port t r)).feedWork

end Sys2Proof.Machine
end

section
/-!
PROOFS. Work on a slot that fails: an issue (R122), a return (R154), and DockWorkFails (R109, R115).
-/
namespace Sys2Proof.Machine

variable (s : State)

-- Steps that write the rack engines, the records of the pool and the accounts, and the ports

/-- In going from `s` to `t` the rack engines and the ports alone may have changed, and the feed link. -/
def State.OnlyRacks (s t : State) : Prop :=
  t = { s with
    rackA := t.rackA, rackB := t.rackB, opsPort := t.opsPort, deskAPort := t.deskAPort, deskBPort := t.deskBPort,
    feed := t.feed }

/-- As `OnlyRacks`, with the receivers, the accounts and the languages. -/
def State.OnlyDocks (s t : State) : Prop :=
  t = { s with
    receivers := t.receivers, accounts := t.accounts, languages := t.languages, rackA := t.rackA, rackB := t.rackB,
    opsPort := t.opsPort, deskAPort := t.deskAPort, deskBPort := t.deskBPort, feed := t.feed }

section
variable {s} {t u : State}

theorem State.OnlyRacks.trans (h : s.OnlyRacks t) (h' : t.OnlyRacks u) : s.OnlyRacks u := by
  unfold State.OnlyRacks at *
  rw [h] at h'
  exact h'

theorem State.OnlyDocks.trans (h : s.OnlyDocks t) (h' : t.OnlyDocks u) : s.OnlyDocks u := by
  unfold State.OnlyDocks at *
  rw [h] at h'
  exact h'

theorem State.OnlyRacks.docks (h : s.OnlyRacks t) : s.OnlyDocks t := by
  unfold State.OnlyRacks at h
  unfold State.OnlyDocks
  rw [h]

theorem State.OnlyRacks.receivers (h : s.OnlyRacks t) : t.receivers = s.receivers := by
  unfold State.OnlyRacks at h
  rw [h]

theorem State.OnlyRacks.accounts (h : s.OnlyRacks t) : t.accounts = s.accounts := by
  unfold State.OnlyRacks at h
  rw [h]

theorem State.OnlyRacks.languages (h : s.OnlyRacks t) : t.languages = s.languages := by
  unfold State.OnlyRacks at h
  rw [h]

end

theorem onlyRacks_setRack (r : Rack) (e : RackEngine) : s.OnlyRacks (s.setRack r e) := by cases r <;> rfl

theorem onlyRacks_setSlot (r : Rack) (n : Nat) (v : Slot) : s.OnlyRacks (s.setSlot r n v) := onlyRacks_setRack s r _

theorem onlyRacks_setBus (r : Rack) (b : Bus) : s.OnlyRacks (s.setBus r b) := onlyRacks_setRack s r _

theorem onlyRacks_endedAt (r : Rack) (n : Nat) : s.OnlyRacks (s.endedAt r n) :=
  (onlyRacks_setBus s r .idle).trans (onlyRacks_setSlot _ r n _)

theorem onlyRacks_notifyRack (r : Rack) (n : Notice) : s.OnlyRacks (s.notifyRack r n) := by
  unfold State.OnlyRacks
  ext <;> simp

theorem onlyRacks_kick (r : Rack) : s.OnlyRacks (s.kickRack r).feedWork := by
  obtain ⟨bus, due, h⟩ := kickRack_eq s r
  rw [h]
  refine (onlyRacks_setRack s r { s.rack r with bus := bus, due := due }).trans ?_
  unfold State.OnlyRacks
  rw [feedWork_frame]

-- An entry leaves its account (R122)

/-- The account `ref` names without the entry of receiver `i`; another one as it is. -/
def Account.without (a : Account) (ref : AccountRef) (i : Nat) : Account :=
  if a.generation = ref.generation then
    { a with account := a.account.map fun o => { o with entries := o.entries.filter fun e => e.receiver ≠ i } }
  else a

theorem without_eq {a : Account} {ref : AccountRef} {o : OpenAccount} (i : Nat) (h : a = ⟨ref.generation, some o⟩) :
    a.without ref i = ⟨ref.generation, some { o with entries := o.entries.filter fun e => e.receiver ≠ i }⟩ := by
  subst h
  exact if_pos rfl

/-- The removal of an entry is a write of the account without it, or nothing where there is no such account. -/
theorem removeEntry_cases (ref : AccountRef) (i : Nat) :
    (s.removeEntry ref i = s ∧ (s.account ref.index).without ref i = s.account ref.index) ∨
      s.removeEntry ref i = s.setAccount ref.index ((s.account ref.index).without ref i) := by
  unfold State.removeEntry State.openAccount
  by_cases hgeneration : (s.account ref.index).generation = ref.generation
  · cases hopen : (s.account ref.index).account with
    | none =>
      refine .inl ⟨by rw [if_pos hgeneration], ?_⟩
      generalize s.account ref.index = a at hgeneration hopen
      obtain ⟨generation, account⟩ := a
      subst hopen
      exact if_pos hgeneration
    | some o =>
      refine .inr ?_
      rw [if_pos hgeneration, Account.without, if_pos hgeneration, hopen]
      rfl
  · exact .inl ⟨by rw [if_neg hgeneration], if_neg hgeneration⟩

theorem account_removeEntry (ref : AccountRef) (i j : Nat) :
    (s.removeEntry ref i).account j =
      if j = ref.index then (s.account ref.index).without ref i else s.account j := by
  rcases removeEntry_cases s ref i with ⟨h, hsame⟩ | h
  · rw [h, hsame]
    split <;> simp [*]
  · rw [h, account_setAccount]

theorem told_removeEntry (ref : AccountRef) (i : Nat) :
    Told s (s.removeEntry ref i) (accountRecords s ref.index ((s.account ref.index).without ref i)) toNone := by
  rcases removeEntry_cases s ref i with ⟨h, hsame⟩ | h
  · rw [h, hsame, accountRecords, if_pos rfl]
    exact Told.refl s
  · rw [h]
    exact told_setAccount s ref.index _

theorem removeEntry_read {α : Type} (read : State → α) (ref : AccountRef) (i : Nat)
    (hread : ∀ j v, read (s.setAccount j v) = read s) : read (s.removeEntry ref i) = read s := by
  rcases removeEntry_cases s ref i with ⟨h, _⟩ | h
  · rw [h]
  · rw [h, hread]

@[simp] theorem removeEntry_rack (ref : AccountRef) (i : Nat) (x : Rack) : (s.removeEntry ref i).rack x = s.rack x :=
  removeEntry_read s (·.rack x) ref i (by simp)

@[simp] theorem removeEntry_profile (ref : AccountRef) (i : Nat) : (s.removeEntry ref i).profile = s.profile :=
  removeEntry_read s (·.profile) ref i (by simp)

@[simp] theorem removeEntry_receiver (ref : AccountRef) (i j : Nat) :
    (s.removeEntry ref i).receiver j = s.receiver j := removeEntry_read s (·.receiver j) ref i (by simp)

@[simp] theorem removeEntry_language (ref : AccountRef) (i l : Nat) :
    (s.removeEntry ref i).language l = s.language l := removeEntry_read s (·.language l) ref i (by simp)

theorem onlyDocks_setReceiver (i : Nat) (v : Option Receiver) : s.OnlyDocks (s.setReceiver i v) := rfl

theorem onlyDocks_setAccount (i : Nat) (v : Account) : s.OnlyDocks (s.setAccount i v) := by
  unfold State.OnlyDocks
  ext <;> simp

theorem onlyDocks_setLanguage (l : Nat) (v : Language) : s.OnlyDocks (s.setLanguage l v) := by
  unfold State.OnlyDocks
  ext <;> simp

theorem onlyDocks_removeEntry (ref : AccountRef) (i : Nat) : s.OnlyDocks (s.removeEntry ref i) := by
  rcases removeEntry_cases s ref i with ⟨h, _⟩ | h
  · rw [h]
    rfl
  · rw [h]
    exact onlyDocks_setAccount s _ _

-- The failure of an issue (R122)

/-- The issue of receiver `i` on slot `n` has failed, before its notice (R122). -/
def State.failed (s : State) (r : Rack) (n i : Nat) (w : Receiver) (ref : AccountRef) (l : Nat) : State :=
  (((s.setReceiver i (some { w with state := .stock })).removeEntry ref i).dropListener l).dropQueued r n

theorem failIssue_eq {former : Slot} {ref : AccountRef} {l i : Nat} {ident : Ident} {w : Receiver}
    (hissue : former.issue = some ⟨ref, l⟩) (hident : former.ident = some ident)
    (hserial : s.bySerial ident.serial = some (i, w)) (r : Rack) (n : Nat) (cause : Cause) :
    s.failIssue r n former cause =
      (s.failed r n i w ref l).notifyRack r (.issueFailed n w.serial ref l cause) := by
  simp only [State.failIssue, State.identReceiver, hissue, hident, hserial, State.failed]

section
variable (r : Rack) (n i : Nat) (w : Receiver) (ref : AccountRef) (l : Nat)

theorem failed_receiver (j : Nat) :
    (s.failed r n i w ref l).receiver j = if j = i then some { w with state := .stock } else s.receiver j := by
  simp [State.failed, State.dropQueued, receiver_setReceiver]

theorem failed_account (j : Nat) :
    (s.failed r n i w ref l).account j =
      if j = ref.index then (s.account ref.index).without ref i else s.account j := by
  simp [State.failed, State.dropQueued, account_removeEntry]

theorem failed_language (k : Nat) :
    (s.failed r n i w ref l).language k =
      if k = l then { s.language l with listeners := (s.language l).listeners - 1 } else s.language k := by
  simp [State.failed, State.dropQueued, language_setLanguage]

theorem failed_rack (x : Rack) :
    (s.failed r n i w ref l).rack x =
      if x = r then { s.rack r with queue := (s.rack r).queue.filter fun q => q.slot ≠ n } else s.rack x := by
  simp [State.failed, State.dropQueued, rack_setRack]

theorem told_failed :
    Told s (s.failed r n i w ref l)
      (accountRecords s ref.index ((s.account ref.index).without ref i) ++ listenerRecords s l) toNone := by
  have hreceiver : Told s (s.setReceiver i (some { w with state := .stock })) [] toNone :=
    .of_ports (setReceiver_port s i _)
  have hentry := told_removeEntry (s.setReceiver i (some { w with state := .stock })) ref i
  have hlistener := told_dropListener ((s.setReceiver i (some { w with state := .stock })).removeEntry ref i) l
  rw [listenerRecords_congr (s := s) (by simp)] at hlistener
  exact ((hreceiver.trans_silent hentry).trans_silent hlistener).of_same_ports (setRack_port _ r _)

theorem onlyDocks_failed : s.OnlyDocks (s.failed r n i w ref l) :=
  (((onlyDocks_setReceiver s i _).trans (onlyDocks_removeEntry _ ref i)).trans (onlyDocks_setLanguage _ l _)).trans
    (onlyRacks_setRack _ r _).docks

end

/-- The slot of a failed issue stands as its caller wrote it; the issue has left the queue. -/
theorem Docked.failed {s t : State} {r : Rack} {n : Nat} {v : Slot} {probed : Bool} {queue : List QueuedIssue}
    (h : Docked s t r n v probed queue) (i : Nat) (w : Receiver) (ref : AccountRef) (l : Nat) :
    Docked s (t.failed r n i w ref l) r n v probed (queue.filter fun q => q.slot ≠ n) := by
  rw [← h.queue]
  refine Docked.same (Docked.setQueue h ((t.rack r).queue.filter fun q => q.slot ≠ n)) (fun x => ?_) ?_
  · rw [failed_rack, rack_setRack]
  · simp [State.failed, State.dropQueued]

-- The end of a return in hand (R154)

theorem tellAbandoned_eq {former : Slot} {ident : Ident} {i l : Nat} {w : Receiver} {ref : AccountRef} {rack : Rack}
    {issued : Stamp} (hident : former.ident = some ident) (hserial : s.bySerial ident.serial = some (i, w))
    (hstate : w.state = .issued ref l rack issued) (r : Rack) (n : Nat) (cause : Cause) :
    s.tellAbandoned r n former cause = s.notifyRack r (.returnAbandoned n w.serial ref cause) := by
  simp [State.tellAbandoned, State.identReceiver, hident, hserial, hstate]

-- A slot that loses its work

/-- From `s` to `t` the transaction on slot `n` of a rack ended and left the slot with its state alone, with the notices
given; what the slot held is `former`, whose work is still to fail. -/
structure Emptied (s t : State) (r : Rack) (n : Nat) (state : SlotState) (first : List Notice) (former : Slot) :
    Prop where
  docked : Docked s t r n (.only state) ((s.slot r n).state.probed && state.probed) (s.rack r).queue
  told : Told s t [] (toDesk r first)
  frame : s.OnlyRacks t
  same : ∃ retry, former = { s.slot r n with retry := retry }

section
variable {s} {t : State} {r : Rack} {n : Nat} {state : SlotState} {first : List Notice} {former : Slot} {cause : Cause}

theorem Emptied.bySerial (h : Emptied s t r n state first former) (serial : Nat) :
    t.bySerial serial = s.bySerial serial := by
  unfold State.bySerial
  rw [h.frame.receivers]

/-- Without work in hand nothing fails. -/
theorem Emptied.idle (h : Emptied s t r n state first former) (h1 : (s.slot r n).state ≠ .issuing)
    (h2 : (s.slot r n).state ≠ .returning) (h3 : (s.slot r n).state ≠ .held) : t.failWork r n former cause = t := by
  obtain ⟨retry, rfl⟩ := h.same
  unfold State.failWork
  cases hstate : (s.slot r n).state <;> simp_all

/-- A return in hand is abandoned, with its notice (R154). -/
theorem Emptied.abandons (h : Emptied s t r n state first former) {ident : Ident} {i l : Nat} {w : Receiver}
    {ref : AccountRef} {rack : Rack} {issued : Stamp}
    (hstate : (s.slot r n).state = .returning ∨ (s.slot r n).state = .held)
    (hident : (s.slot r n).ident = some ident) (hserial : s.bySerial ident.serial = some (i, w))
    (hissued : w.state = .issued ref l rack issued) :
    t.failWork r n former cause = t.notifyRack r (.returnAbandoned n w.serial ref cause) := by
  obtain ⟨retry, rfl⟩ := h.same
  rw [← tellAbandoned_eq t (former := { s.slot r n with retry := retry }) hident
    ((h.bySerial ident.serial).trans hserial) hissued r n cause]
  unfold State.failWork
  rcases hstate with hstate | hstate <;> simp [hstate]

/-- An issue in hand fails, with its notice (R122). -/
theorem Emptied.fails (h : Emptied s t r n state first former) {ident : Ident} {i l : Nat} {w : Receiver}
    {ref : AccountRef} (hstate : (s.slot r n).state = .issuing) (hident : (s.slot r n).ident = some ident)
    (hissue : (s.slot r n).issue = some ⟨ref, l⟩) (hserial : s.bySerial ident.serial = some (i, w)) :
    t.failWork r n former cause =
      (t.failed r n i w ref l).notifyRack r (.issueFailed n w.serial ref l cause) := by
  obtain ⟨retry, rfl⟩ := h.same
  rw [← failIssue_eq t (former := { s.slot r n with retry := retry }) hissue hident
    ((h.bySerial ident.serial).trans hserial) r n cause]
  unfold State.failWork
  simp [hstate]

theorem Emptied.account (h : Emptied s t r n state first former) (j : Nat) : t.account j = s.account j := by
  unfold State.account
  rw [h.frame.accounts]

theorem Emptied.language (h : Emptied s t r n state first former) (l : Nat) : t.language l = s.language l := by
  unfold State.language
  rw [h.frame.languages]

theorem Emptied.receiver (h : Emptied s t r n state first former) (j : Nat) : t.receiver j = s.receiver j := by
  unfold State.receiver
  rw [h.frame.receivers]

theorem Emptied.toldFailed (h : Emptied s t r n state first former) (i : Nat) (w : Receiver) (ref : AccountRef) (l : Nat)
    (cause : Cause) :
    Told s ((t.failed r n i w ref l).notifyRack r (.issueFailed n w.serial ref l cause))
      (accountRecords s ref.index ((s.account ref.index).without ref i) ++ listenerRecords s l)
      (toDesk r (first ++ [.issueFailed n w.serial ref l cause])) := by
  have hfailed := told_failed t r n i w ref l
  rw [listenerRecords_congr (h.language l), accountRecords, h.account ref.index] at hfailed
  exact h.told.trans_desk (hfailed.notifyRack r _)

end

end Sys2Proof.Machine
end

section
/-!
PROOFS. DockWorkFails: a dock transaction that ends badly (R109, R115).
-/
namespace Sys2Proof.Machine

variable (s : State)

/-- A LINE_FAULT ends the transaction in flight by the rule of R109. -/
theorem exec_lineFaultOf (r : Rack) (k : Transaction) :
    ∃ answers own, exec (lineFaultOf r k) s = .next (s.hallEvent fun s => s.dockEnd r answers true own) ∧
      answers k = true := by
  cases k <;> exact ⟨_, _, rfl, by simp [Transaction.kind, Transaction.slot]⟩

/-- A NO_ANSWER that ends an IDENT, PRESET or MARK removes the unit (R115). -/
theorem exec_noAnswerOf (r : Rack) {k : Transaction} (hk : k.kind ≠ .probe) :
    ∃ answers own, exec (noAnswerOf r k) s = .next (s.hallEvent fun s => s.dockEnd r answers false own) ∧
      answers k = true ∧ ∀ t : State, own k t = t.departSlot r k.slot := by
  cases k with
  | probe n => exact absurd rfl hk
  | ident n => exact ⟨_, _, rfl, by simp, fun _ => rfl⟩
  | preset n channel code => exact ⟨_, _, rfl, by simp [Transaction.kind], fun _ => rfl⟩
  | markHired n => exact ⟨_, _, rfl, by simp [Transaction.slot], fun _ => rfl⟩
  | markReturn n => exact ⟨_, _, rfl, by simp, fun _ => rfl⟩
  | markRepair n =>
    refine ⟨_, _, rfl, by simp, fun t => ?_⟩
    cases (t.slot r n).ident <;> rfl

variable {s}

/-- The slot of a transaction that fails has lost what it held, and its work is to fail (R109, R115). -/
theorem emptied_of_failsBy {r : Rack} {k : Transaction} {event : Instr} {state : SlotState} {cause : Cause}
    {first : List Notice} (hflight : s.InFlight r k) (h : FailsBy s r k event state cause first) :
    ∃ t former, exec event s = .next ((t.failWork r k.slot former cause).kickRack r).feedWork ∧
      Emptied s t r k.slot state first former := by
  rcases h with ⟨rfl, hretry, rfl, rfl, rfl⟩ | ⟨rfl, hkind, rfl, rfl, rfl⟩
  · obtain ⟨answers, own, hexec, hanswers⟩ := exec_lineFaultOf s r k
    refine ⟨_, _, event_next hexec hflight.1 (dockEnd_fault hflight.2 hanswers hretry), ?_, ?_, ?_, ?_⟩
    · rw [show ((s.slot r k.slot).state.probed && SlotState.faulted.probed) = false from Bool.and_false _]
      exact ((docked_setBus s r k.slot).setSlot (.only .faulted)).same (fun x => notify_rack _ _ _ x)
        (notify_profile _ _ _)
    · exact (Told.of_ports fun p => by simp).notifyRack r _
    · exact ((onlyRacks_setBus s r .idle).trans (onlyRacks_setSlot _ r _ _)).trans (onlyRacks_notifyRack _ r _)
    · exact ⟨(s.slot r k.slot).retry, slot_setBus s r r .idle k.slot⟩
  · obtain ⟨answers, own, hexec, hanswers, hown⟩ := exec_noAnswerOf s r hkind
    have hnext := dock_next hexec hflight rfl hanswers
    rw [hown] at hnext
    refine ⟨_, _, hnext, (docked_endedAt s r k.slot).setSlot (.only .departing), ?_, ?_, ⟨false, endedAt_slot r k.slot⟩⟩
    · exact ((told_endedAt r k.slot).of_same_ports (setSlot_port _ r _ _)).congr fun p => by simp [toDesk, toNone]
    · exact (onlyRacks_endedAt s r k.slot).trans (onlyRacks_setSlot _ r _ _)

/-- Settles O53: a first LINE_FAULT marks the slot; otherwise the slot is emptied, and what its work was decides what fails. -/
theorem dockWorkFails : Obligations.DockWorkFails := by
  unfold Obligations.DockWorkFails
  intro s r k hflight n v
  refine ⟨fun hretry => ?first, fun event state cause first hfails => ?fails⟩
  case first =>
    obtain ⟨answers, own, hexec, hanswers⟩ := exec_lineFaultOf s r k
    refine ⟨_, event_next hexec hflight.1 (dockEnd_retry hflight.2 hanswers hretry), ?_, fun m hm => ?_, ?_, ?_, ?_,
      fun x hx => ?_, ?_⟩
    · simp [n, v]
    · simp [slot_setSlot, n, hm]
    · simp [hflight.2]
    · rw [dueAfter_eq, feedWork_rack, due_setSlot]
      cases hprobed : v.state.probed <;> simp [State.dueUnless, hprobed, v, n]
    · simp
    · simp [State.setSlot, rack_setRack, hx]
    · ext <;> simp
  case fails =>
    obtain ⟨t, former, hexec, hempty⟩ := emptied_of_failsBy hflight hfails
    have hstates : [v.state, state].all SlotState.probed = (v.state.probed && state.probed) := by simp
    have hleft : ∀ {u : State} {queue : List QueuedIssue}, t.failWork r n former cause = u →
        Docked s u r n (.only state) (v.state.probed && state.probed) queue → s.OnlyDocks u →
        exec event s = .next (u.kickRack r).feedWork ∧
          (u.kickRack r).feedWork.slot r n = ⟨state, none, none, none, false, false⟩ ∧
          (∀ m, m ≠ n → (u.kickRack r).feedWork.slot r m = s.slot r m) ∧
          ((u.kickRack r).feedWork.rack r).queue = queue ∧
          (∀ x, x ≠ r → (u.kickRack r).feedWork.rack x = s.rack x) ∧
          (s.rackFitted r = true → Chosen (u.kickRack r).feedWork r (dueAfter s r n [v.state, state])) ∧
          s.OnlyDocks (u.kickRack r).feedWork := by
      intro u queue hu hdocked hframe
      have hfinished := hdocked.finish hstates
      exact ⟨hu ▸ hexec, hfinished.slot, hfinished.slots, hfinished.queue, hfinished.others, hfinished.chosen,
        hframe.trans (onlyRacks_kick u r).docks⟩
    refine ⟨fun h1 h2 h3 => ?idle, fun ident i w ref l rack issued hstate hident hserial hissued => ?abandons,
      fun ident i w ref l o hstate hident hissue hserial haccount => ?issue⟩
    case idle =>
      refine ⟨_, hleft (hempty.idle h1 h2 h3) hempty.docked hempty.frame.docks, ?_, ?_, ?_, hempty.told.kicked r⟩
      · simp [hempty.frame.receivers]
      · simp [hempty.frame.accounts]
      · simp [hempty.frame.languages]
    case abandons =>
      refine ⟨_, hleft (hempty.abandons hstate hident hserial hissued)
        (hempty.docked.same (fun x => notify_rack t _ _ x) (notify_profile t _ _))
        (hempty.frame.trans (onlyRacks_notifyRack t r _)).docks, ?_, ?_, ?_, ?_⟩
      · simp [hempty.frame.receivers]
      · simp [hempty.frame.accounts]
      · simp [hempty.frame.languages]
      · exact (hempty.told.trans_desk (told_notifyRack t r _)).kicked r
    case issue =>
      refine ⟨_, hleft (hempty.fails hstate hident hissue hserial)
        ((hempty.docked.failed i w ref l).same (fun x => notify_rack _ _ _ x) (notify_profile _ _ _))
        ((hempty.frame.docks.trans (onlyDocks_failed t r n i w ref l)).trans (onlyRacks_notifyRack _ r _).docks),
        ?_, fun j hj => ?_, ?_, fun j hj => ?_, ?_, fun x hx => ?_, ?_⟩
      · simp [failed_receiver]
      · simp [failed_receiver, hj, hempty.receiver]
      · simp [failed_account, hempty.account, without_eq i haccount]
      · simp [failed_account, hj, hempty.account]
      · simp [failed_language, hempty.language]
      · simp [failed_language, hx, hempty.language]
      · rw [← without_eq i haccount]
        exact (hempty.toldFailed i w ref l cause).kicked r

end Sys2Proof.Machine
end

section
/-!
PROOFS. ScanTracksPresence: SCAN_ROUND and PROBE_OUTCOME (R112 to R114).
-/
namespace Sys2Proof.Machine

variable (s : State)

-- SCAN_ROUND (R112)

theorem dueSlots_eq (r : Rack) : dueSlots s r = (s.fittedSlots r).filter fun n => (s.slot r n).state.probed := by
  simp only [dueSlots, contains_eq_probed]
  rfl

theorem workOf_eq_none {r : Rack} (hqueue : (s.rack r).queue = [])
    (hslots : ∀ n, n ≤ 31 → (s.slot r n).state ≠ .identifying ∧ (s.slot r n).state ≠ .returning) :
    workOf s r = none := by
  have harrivals : (List.range 32).filter
      (fun n => decide ((s.slot r n).state = .identifying ∨ (s.slot r n).state = .returning)) = [] := by
    refine List.filter_eq_nil_iff.mpr fun n hn => ?_
    have hn : n ≤ 31 := by have := List.mem_range.mp hn; omega
    simpa using hslots n hn
  simp only [workOf, harrivals, hqueue]

/-- The state in which the round's slots are due, before the engine looks for work. -/
def State.roundBegun (s : State) (r : Rack) : State := s.setRack r { s.rack r with due := dueSlots s r }

theorem exec_scanRound {r : Rack} (hrun : s.run = .hall) :
    exec (.scanRound r) s = .next ((s.roundBegun r).kickRack r).feedWork := by
  refine event_next (i := .scanRound r) rfl hrun ?_
  rw [State.roundBegun, dueSlots_eq]
  rfl

theorem roundBegun_rack (r : Rack) : (s.roundBegun r).rack r = { s.rack r with due := dueSlots s r } :=
  rack_setRack_same s r _

/-- An idle engine of a fitted rack chooses among the work and the slots that the round made due (R110, R112). -/
theorem chosen_scanRound {r : Rack} (hidle : (s.rack r).bus = .idle) (hfit : s.rackFitted r = true) :
    Chosen ((s.roundBegun r).kickRack r).feedWork r (dueSlots s r) := by
  have hchosen := chosen_kickRack (s := s.roundBegun r) (r := r) (by rw [State.roundBegun, setRack_rackFitted, hfit])
    (by rw [roundBegun_rack]; exact hidle)
  rw [roundBegun_rack] at hchosen
  exact chosen_congr (feedWork_rack _ r) (feedWork_language _) hchosen

theorem slots_kickRack (r : Rack) : ((s.kickRack r).rack r).slots = (s.rack r).slots := by
  obtain ⟨bus, due, h⟩ := kickRack_eq s r
  rw [h, rack_setRack_same]

-- PROBE_OUTCOME (R113, R114)

variable {s}

/-- The probe of a slot that keeps what it holds writes the slot as R113 and R114 say, or leaves it. -/
theorem probe_writes {r : Rack} {n : Nat} {v : Slot} (answered : Bool) (hslot : s.slot r n = { v with retry := false })
    (hstays : ¬ (v.state = .departing ∧ answered = false))
    (hmiss : v.state = .issuing ∨ v.state = .held → answered = true ∨ v.miss = false) :
    (if answered then s.probeAnswer r n else s.probeMiss r n) =
        s.setSlot r n { afterProbe v answered with retry := false } ∨
      (if answered then s.probeAnswer r n else s.probeMiss r n) = s ∧ afterProbe v answered = v := by
  obtain ⟨state, ident, returned, issue, retry, miss⟩ := v
  cases answered with
  | true =>
    rw [if_pos rfl, State.probeAnswer, hslot]
    cases state with
    | departing => left; cases ident <;> simp [State.setSlotState, afterProbe, hslot]
    | occupied | identifying | returning | faulted => exact .inr ⟨rfl, rfl⟩
    | empty | arriving | issuing | held => left; simp [State.setSlotState, afterProbe, hslot]
  | false =>
    rw [if_neg Bool.false_ne_true, State.probeMiss, hslot]
    cases state with
    | departing => exact absurd ⟨rfl, rfl⟩ hstays
    | empty | identifying | returning | faulted => exact .inr ⟨rfl, rfl⟩
    | arriving | occupied => left; simp [State.setSlotState, afterProbe, hslot]
    | issuing | held =>
      have hmiss : miss = false := by simpa using hmiss
      subst hmiss
      exact .inl rfl

/-- The slot of a confirmed departure has lost what it held, and its work is to fail (R113, R114). -/
theorem emptied_left (s : State) (r : Rack) (n : Nat) :
    Emptied s ((s.endedAt r n).setSlot r n (.only .empty)) r n .empty [] { s.slot r n with retry := false } where
  docked := (docked_endedAt s r n).setSlot _
  told := ((told_endedAt r n).of_same_ports (setSlot_port _ r _ _)).congr fun p => by simp [toDesk, toNone]
  frame := (onlyRacks_endedAt s r n).trans (onlyRacks_setSlot _ r _ _)
  same := ⟨false, rfl⟩

theorem slotLeft_endedAt (r : Rack) (n : Nat) :
    (s.endedAt r n).slotLeft r n =
      (((s.endedAt r n).setSlot r n (.only .empty)).failWork r n { s.slot r n with retry := false } .removed).notifyRack r
        (.slotLeft n ((s.slot r n).ident.map (·.serial))) := by
  simp only [State.slotLeft, endedAt_slot]

theorem probeRow (s : State) (r : Rack) (n : Nat) (outcome : DockOutcome) :
    exec (.probeOutcome r n outcome) s =
      .next (s.hallEvent fun s => s.dockEnd r (fun t => t = .probe n) (outcome = .lineFault) fun _ s =>
        if outcome = .done then s.probeAnswer r n else s.probeMiss r n) := rfl

/-- PROBE_OUTCOME of the slot's transaction, DONE or NO_ANSWER (R113, R114). -/
theorem exec_probeOutcome {r : Rack} {n : Nat} (answered : Bool) (h : s.InFlight r (.probe n)) :
    exec (.probeOutcome r n (if answered then .done else .noAnswer)) s =
      .next ((if answered then (s.endedAt r n).probeAnswer r n else (s.endedAt r n).probeMiss r n).kickRack r).feedWork := by
  cases answered
  · have hnext := dock_next (probeRow s r n .noAnswer) h rfl (decide_eq_true rfl)
    exact hnext
  · have hnext := dock_next (probeRow s r n .done) h rfl (decide_eq_true rfl)
    exact hnext

/-- A probe that leaves no work in hand without its unit (R113, R114). -/
theorem probe_tracks {r : Rack} {n : Nat} (answered : Bool)
    (hmiss : (s.slot r n).state = .issuing ∨ (s.slot r n).state = .held → answered = true ∨ (s.slot r n).miss = false) :
    let v := s.slot r n
    let u := if answered then (s.endedAt r n).probeAnswer r n else (s.endedAt r n).probeMiss r n
    Docked s u r n { afterProbe v answered with retry := false }
        (v.state.probed && (afterProbe v answered).state.probed) (s.rack r).queue ∧
      Told s u [] (toDesk r
        (if v.state = .departing ∧ answered = false then [.slotLeft n (v.ident.map (·.serial))] else [])) ∧
      s.OnlyRacks u := by
  intro v u
  by_cases hleaves : v.state = .departing ∧ answered = false
  · obtain ⟨hstate, rfl⟩ := hleaves
    have hdeparting : (s.slot r n).state = .departing := hstate
    have hempty := emptied_left s r n
    have hu : u = ((s.endedAt r n).setSlot r n (.only .empty)).notifyRack r (.slotLeft n (v.ident.map (·.serial))) := by
      have hmissed : u = (s.endedAt r n).slotLeft r n := by
        simp only [u, Bool.false_eq_true, if_false, State.probeMiss, endedAt_slot]
        rw [hdeparting]
      rw [hmissed, slotLeft_endedAt]
      rw [hempty.idle (by simp [hdeparting]) (by simp [hdeparting]) (by simp [hdeparting])]
    have hafter : afterProbe v false = .only .empty := by simp only [afterProbe, hstate]; rfl
    rw [hu, hafter, if_pos ⟨hstate, rfl⟩]
    exact ⟨hempty.docked.same (fun x => notify_rack _ _ _ x) (notify_profile _ _ _),
      hempty.told.trans_desk (told_notifyRack _ r _),
      hempty.frame.trans (onlyRacks_notifyRack _ r _)⟩
  · have htold : Told s (s.endedAt r n) [] (toDesk r []) := (told_endedAt r n).congr fun p => by simp [toDesk, toNone]
    rw [if_neg hleaves]
    rcases probe_writes (s := s.endedAt r n) answered (endedAt_slot r n) hleaves hmiss with hu | ⟨hu, hsame⟩
    · rw [show u = _ from hu]
      exact ⟨(docked_endedAt s r n).setSlot _, htold.of_same_ports (setSlot_port _ r _ _),
        (onlyRacks_endedAt s r n).trans (onlyRacks_setSlot _ r _ _)⟩
    · rw [show u = _ from hu, show afterProbe v answered = v from hsame, Bool.and_self]
      exact ⟨docked_endedAt s r n, htold, onlyRacks_endedAt s r n⟩

/-- Settles O49: the round makes the probed slots due, and a probe's outcome is judged by the slot's state. -/
theorem scanTracksPresence : Obligations.ScanTracksPresence := by
  unfold Obligations.ScanTracksPresence
  refine ⟨fun s r hrun => ?round, ?probe,
?leaves⟩
  case round =>
    have hslots : (((s.roundBegun r).kickRack r).feedWork.rack r).slots = (s.rack r).slots := by
      rw [feedWork_rack, slots_kickRack, roundBegun_rack]
    have hqueue : (((s.roundBegun r).kickRack r).feedWork.rack r).queue = (s.rack r).queue := by
      rw [feedWork_rack, kickRack_queue, roundBegun_rack]
    refine ⟨_, exec_scanRound s hrun, fun hbusy => ?busy, fun hidle hfit hempty hnone => ?idle,
      fun hidle hfit => chosen_scanRound s hidle hfit, hslots, hqueue, fun x hx => ?others, ?frame⟩
    case busy =>
      have hbusy : ((s.roundBegun r).rack r).bus ≠ .idle ∨ (s.roundBegun r).rackFitted r = false := by
        rw [roundBegun_rack, State.roundBegun, setRack_rackFitted]
        exact hbusy
      rw [kickRack_of_busy _ hbusy, feedWork_rack, roundBegun_rack]
    case idle =>
      have hchosen := chosen_scanRound s hidle hfit
      generalize ((s.roundBegun r).kickRack r).feedWork = t at hslots hqueue hchosen
      have hwork : workOf t r = none := by
        refine workOf_eq_none t (hqueue.trans hempty) fun n hn => ?_
        unfold State.slot
        rw [hslots]
        exact hnone n hn
      unfold Chosen at hchosen
      rw [hwork] at hchosen
      generalize t.rack r = e at hslots hqueue hchosen
      obtain ⟨slots, queue, due, bus⟩ := e
      cases hdue : dueSlots s r <;> simp_all
    case others => rw [feedWork_rack, kickRack_rack_ne _ hx, State.roundBegun, rack_setRack, if_neg hx]
    case frame =>
      obtain ⟨bus, due, hkick⟩ := kickRack_eq (s.roundBegun r) r
      rw [hkick, State.roundBegun]
      ext <;> simp
  case probe =>
    intro s r n answered hflight v hmiss
    obtain ⟨hdocked, htold, hframe⟩ := probe_tracks answered hmiss
    have hfinished := hdocked.finish (states := [v.state, (afterProbe v answered).state]) (by simp [v])
    exact ⟨_, exec_probeOutcome answered hflight, hfinished.slot, hfinished.slots, hfinished.queue, hfinished.others,
      htold.kicked r, hfinished.chosen, hframe.trans (onlyRacks_kick _ r)⟩
  case leaves =>
    intro s r n i l ident w ref hflight v hmiss hident hserial left
    have hempty := emptied_left s r n
    have hleft : ∀ {u : State} {queue : List QueuedIssue}, v.state = .issuing ∨ v.state = .held →
        ((s.endedAt r n).setSlot r n (.only .empty)).failWork r n { v with retry := false } .removed = u →
        Docked s u r n (.only .empty) (v.state.probed && SlotState.empty.probed) queue → s.OnlyDocks u →
        let t := ((u.notifyRack r (.slotLeft n (some ident.serial))).kickRack r).feedWork
        left t ∧ (t.rack r).queue = queue := by
      intro u queue hstate hu hdocked hframe t
      have hprobed : (v.state.probed && SlotState.empty.probed) = true := by rcases hstate with h | h <;> rw [h] <;> rfl
      have hmissed : (s.endedAt r n).probeMiss r n = u.notifyRack r (.slotLeft n (some ident.serial)) := by
        have hserial : (s.slot r n).ident.map (·.serial) = some ident.serial := congrArg (Option.map _) hident
        have hslot : (s.endedAt r n).probeMiss r n = (s.endedAt r n).slotLeft r n := by
          rw [State.probeMiss, endedAt_slot]
          rcases hstate with h | h <;> simp [v] at h hmiss <;> simp [h, hmiss]
        rw [hslot, slotLeft_endedAt, hserial, ← hu]
      have hexec := exec_probeOutcome false hflight
      rw [if_neg Bool.false_ne_true, if_neg Bool.false_ne_true, hmissed] at hexec
      have hfinished := (hdocked.same (u := u.notifyRack r (.slotLeft n (some ident.serial)))
        (fun x => notify_rack _ _ _ x) (notify_profile _ _ _)).finish (states := []) hprobed.symm
      exact ⟨⟨hexec, hfinished.slot, hfinished.slots, hfinished.others, hfinished.chosen,
        (hframe.trans (onlyRacks_notifyRack u r _).docks).trans (onlyRacks_kick _ r).docks⟩, hfinished.queue⟩
    refine ⟨fun rack issued hstate hissued => ?held, fun o hstate hissue haccount => ?issuing⟩
    case held =>
      obtain ⟨hl, hqueue⟩ := hleft (.inr hstate) (hempty.abandons (.inr hstate) hident hserial hissued)
        (hempty.docked.same (fun x => notify_rack _ _ _ x) (notify_profile _ _ _))
        (hempty.frame.trans (onlyRacks_notifyRack _ r _)).docks
      refine ⟨_, hl, hqueue, ?_, ?_, ?_, ?_⟩
      · simp
      · simp
      · simp
      · exact ((hempty.told.trans_desk (told_notifyRack _ r _)).trans_desk (told_notifyRack _ r _)).kicked r
    case issuing =>
      obtain ⟨hl, hqueue⟩ := hleft (.inl hstate) (hempty.fails hstate hident hissue hserial)
        ((hempty.docked.failed i w ref l).same (fun x => notify_rack _ _ _ x) (notify_profile _ _ _))
        ((hempty.frame.docks.trans (onlyDocks_failed _ r n i w ref l)).trans (onlyRacks_notifyRack _ r _).docks)
      refine ⟨_, hl, hqueue, ?_, fun j hj => ?_, ?_, fun j hj => ?_, ?_, fun x hx => ?_, ?_⟩
      · simp [failed_receiver]
      · simp [failed_receiver, hj, hempty.receiver]
      · simp [failed_account, hempty.account, without_eq i haccount]
      · simp [failed_account, hj, hempty.account]
      · simp [failed_language, hempty.language]
      · simp [failed_language, hx, hempty.language]
      · have htold := (hempty.toldFailed i w ref l .removed).trans_desk (told_notifyRack _ r (.slotLeft n (some ident.serial)))
        rw [List.append_nil, without_eq i haccount] at htold
        exact htold.kicked r

end Sys2Proof.Machine
end

section
/-!
PROOFS. IssueStepsComplete: the PRESET and the MARK hired of the head issue (R120, R121).
-/
namespace Sys2Proof.Machine

variable (s : State)

-- Steps that write the rack engines alone

/-- In going from `s` to `t` the rack engines alone may have changed, and the feed link. -/
def State.OnlyEngines (s t : State) : Prop := t = { s with rackA := t.rackA, rackB := t.rackB, feed := t.feed }

section
variable {s} {t u : State}

theorem State.OnlyEngines.trans (h : s.OnlyEngines t) (h' : t.OnlyEngines u) : s.OnlyEngines u := by
  unfold State.OnlyEngines at *
  rw [h] at h'
  exact h'

end

theorem onlyEngines_setRack (r : Rack) (e : RackEngine) : s.OnlyEngines (s.setRack r e) := by cases r <;> rfl

theorem onlyEngines_endedAt (r : Rack) (n : Nat) : s.OnlyEngines (s.endedAt r n) :=
  (onlyEngines_setRack s r _).trans (onlyEngines_setRack _ r _)

theorem onlyEngines_kick (r : Rack) : s.OnlyEngines (s.kickRack r).feedWork := by
  obtain ⟨bus, due, h⟩ := kickRack_eq s r
  rw [h]
  refine (onlyEngines_setRack s r { s.rack r with bus := bus, due := due }).trans ?_
  unfold State.OnlyEngines
  rw [feedWork_frame]

-- The rows of an issue's two transactions

theorem presetRow (r : Rack) (outcome : DockOutcome) :
    exec (.presetOutcome r outcome) s =
      .next (s.hallEvent fun s =>
        s.dockEnd r (fun t => t.kind = .preset) (outcome = .lineFault) fun t s =>
          match outcome, t with
          | .done, .preset _ channel _ => s.presetDone r channel
          | _, _ => s.departSlot r t.slot) := rfl

theorem markHiredRow (r : Rack) (outcome : DockOutcome) :
    exec (.markHiredOutcome r outcome) s =
      .next (s.hallEvent fun s =>
        s.dockEnd r (fun t => t = .markHired t.slot) (outcome = .lineFault) fun t s =>
          if outcome = .done then s.completeIssue r else s.departSlot r t.slot) := rfl

theorem markHired_next {r : Rack} {n : Nat} (h : s.InFlight r (.markHired n)) :
    exec (.markHiredOutcome r .done) s = .next (((s.endedAt r n).completeIssue r).kickRack r).feedWork :=
  have hnext := dock_next (markHiredRow s r .done) h rfl (decide_eq_true rfl)
  hnext

theorem presetDone_eq {r : Rack} {q : QueuedIssue} {rest : List QueuedIssue} (h : (s.rack r).queue = q :: rest)
    (channel : Nat) :
    s.presetDone r channel =
      s.setRack r { s.rack r with queue := { q with preset := some channel } :: rest } := by
  unfold State.presetDone
  rw [h]

-- The completion of an issue (R121)

/-- The account with the entry of receiver `i` HELD (R121). -/
def OpenAccount.holding (o : OpenAccount) (i : Nat) : OpenAccount :=
  { o with entries := o.entries.map fun e => if e.receiver = i then ⟨i, true⟩ else e }

theorem holdEntry_eq {ref : AccountRef} {o : OpenAccount} (h : s.account ref.index = ⟨ref.generation, some o⟩)
    (i : Nat) : s.holdEntry ref i = s.setAccount ref.index ⟨ref.generation, some (o.holding i)⟩ := by
  have hentry : (fun e : Entry => if e.receiver = i then { e with held := true } else e) =
      fun e => if e.receiver = i then ⟨i, true⟩ else e := by
    funext e
    split
    next he => rw [← he]
    next => rfl
  unfold State.holdEntry
  rw [openAccount_of_account s h]
  simp only [setOpen_eq, hentry, h, OpenAccount.holding]

/-- The receiver of a completed issue: ISSUED at this minute, its issue counted (R121). -/
def State.issuedTo (s : State) (r : Rack) (q : QueuedIssue) (w : Receiver) : Receiver :=
  { w with state := .issued q.account q.language r ⟨s.minute, s.day⟩, issues := min 65535 (w.issues + 1) }

/-- The records of a completed issue are written, before the slot and the queue (R121). -/
def State.handedOut (s : State) (r : Rack) (q : QueuedIssue) (i : Nat) (w : Receiver) (o : OpenAccount) : State :=
  (s.setReceiver i (some (s.issuedTo r q w))).setAccount q.account.index ⟨q.account.generation, some (o.holding i)⟩

theorem completeIssue_eq {r : Rack} {q : QueuedIssue} {rest : List QueuedIssue} {ident : Ident} {i : Nat} {w : Receiver}
    {o : OpenAccount} (hqueue : (s.rack r).queue = q :: rest) (hident : (s.slot r q.slot).ident = some ident)
    (hserial : s.bySerial ident.serial = some (i, w))
    (haccount : s.account q.account.index = ⟨q.account.generation, some o⟩) :
    s.completeIssue r =
      let t := (s.handedOut r q i w o).setSlot r q.slot (s.slot r q.slot).issued
      (t.setRack r { t.rack r with queue := rest }).notifyRack r
        (.issueDone q.slot w.serial q.account q.language (q.preset.getD 0)) := by
  have hhold := holdEntry_eq (s.setReceiver i (some (s.issuedTo r q w))) (by rw [setReceiver_account]; exact haccount) i
  rw [State.handedOut, ← hhold]
  simp only [State.completeIssue, hqueue, State.identReceiver, hident, hserial]
  rfl

theorem handedOut_receiver (r : Rack) (q : QueuedIssue) (i j : Nat) (w : Receiver) (o : OpenAccount) :
    (s.handedOut r q i w o).receiver j = if j = i then some (s.issuedTo r q w) else s.receiver j := by
  simp [State.handedOut, receiver_setReceiver]

theorem handedOut_account (r : Rack) (q : QueuedIssue) (i j : Nat) (w : Receiver) (o : OpenAccount) :
    (s.handedOut r q i w o).account j =
      if j = q.account.index then ⟨q.account.generation, some (o.holding i)⟩ else s.account j := by
  simp [State.handedOut, account_setAccount]

theorem told_handedOut (r : Rack) (q : QueuedIssue) (i : Nat) (w : Receiver) (o : OpenAccount) :
    Told s (s.handedOut r q i w o)
      (accountRecords s q.account.index ⟨q.account.generation, some (o.holding i)⟩) toNone := by
  have h := told_setAccount (s.setReceiver i (some (s.issuedTo r q w))) q.account.index
    ⟨q.account.generation, some (o.holding i)⟩
  rw [setReceiver_account] at h
  exact (Told.of_ports (setReceiver_port s i _)).trans_silent h

/-- Settles O51: the PRESET is noted in the queue; the MARK hired completes the head issue. -/
theorem issueStepsComplete : Obligations.IssueStepsComplete := by
  unfold Obligations.IssueStepsComplete
  refine ⟨?preset, ?hired⟩
  case preset =>
    intro s r n channel code q rest hflight hqueue
    have hnext := dock_next (presetRow s r .done) hflight rfl (decide_eq_true rfl)
    have hended : ((s.endedAt r n).rack r).queue = q :: rest := (docked_endedAt s r n).queue.trans hqueue
    have hfinished := ((docked_endedAt s r n).setQueue ({ q with preset := some channel } :: rest)).finish
      (states := [(s.slot r n).state]) (by simp)
    exact ⟨_, hnext.trans (by rw [← presetDone_eq _ hended]; rfl), hfinished.queue, hfinished.slot, hfinished.slots,
      hfinished.others, hfinished.chosen,
      ((onlyEngines_endedAt s r n).trans (onlyEngines_setRack _ r _)).trans (onlyEngines_kick _ r)⟩
  case hired =>
    intro s r n i q rest ident w o hflight hqueue hn hident hserial haccount after
    subst hn
    have hnext := markHired_next s hflight
    have hcomplete := completeIssue_eq (s.endedAt r q.slot) (r := r) (q := q) (rest := rest) (ident := ident) (i := i)
      (w := w) (o := o) ((docked_endedAt s r q.slot).queue.trans hqueue) (by rw [endedAt_slot]; exact hident)
      (by simpa [State.endedAt] using hserial) (by simpa [State.endedAt] using haccount)
    have hdocked : Docked s ((s.endedAt r q.slot).handedOut r q i w o) r q.slot _ _ _ :=
      (docked_endedAt s r q.slot).same (fun x => by simp [State.handedOut]) (by simp [State.handedOut])
    have hslot : ((s.endedAt r q.slot).slot r q.slot).issued =
        { s.slot r q.slot with
          state := .occupied, issue := none, miss := false, retry := false
          ident := some { ident with mark := .hired } } := by
      rw [endedAt_slot]
      simp [Slot.issued, hident]
    have hfinished := (((hdocked.setSlot ((s.endedAt r q.slot).slot r q.slot).issued).setQueue rest).same
      (u := (s.endedAt r q.slot).completeIssue r) (fun x => by rw [hcomplete]; exact notify_rack _ _ _ x)
      (by rw [hcomplete]; exact notify_profile _ _ _)).finish (states := [(s.slot r q.slot).state])
      (by simp [Slot.issued, SlotState.probed])
    refine ⟨_, hnext, ?_, fun j hj => ?_, ?_, fun j hj => ?_, hfinished.slot.trans hslot, hfinished.slots,
      hfinished.queue, hfinished.others, hfinished.chosen, ?_, ?_⟩
    · simp [hcomplete, handedOut_receiver, State.issuedTo]
    · simp [hcomplete, handedOut_receiver, hj]
    · simp [hcomplete, handedOut_account, after, OpenAccount.holding]
    · simp [hcomplete, handedOut_account, hj]
    · have htold := told_handedOut (s.endedAt r q.slot) r q i w o
      rw [accountRecords, endedAt_account] at htold
      have hslot := ((told_endedAt r q.slot).trans_silent htold).of_same_ports
        (setSlot_port _ r q.slot ((s.endedAt r q.slot).slot r q.slot).issued)
      rw [hcomplete]
      exact ((hslot.of_same_ports (setRack_port _ r _)).notifyRack r _).kicked r
    · obtain ⟨bus, due, hkick⟩ := kickRack_eq ((s.endedAt r q.slot).completeIssue r) r
      rw [hkick, hcomplete]
      ext <;> simp [State.endedAt, State.handedOut]

end Sys2Proof.Machine
end

section
/-!
PROOFS. UnitsAreIdentified: IDENT_OUTCOME and REPAIR_MARK_OUTCOME (R116, R117).
-/
namespace Sys2Proof.Machine

variable (s : State)

-- Steps that write the pool, a slot and the ports

/-- As `OnlyRacks`, with the receivers. -/
def State.OnlyPool (s t : State) : Prop :=
  t = { s with
    receivers := t.receivers, rackA := t.rackA, rackB := t.rackB, opsPort := t.opsPort, deskAPort := t.deskAPort,
    deskBPort := t.deskBPort, feed := t.feed }

section
variable {s} {t u : State}

theorem State.OnlyPool.trans (h : s.OnlyPool t) (h' : t.OnlyPool u) : s.OnlyPool u := by
  unfold State.OnlyPool at *
  rw [h] at h'
  exact h'

theorem State.OnlyRacks.pool (h : s.OnlyRacks t) : s.OnlyPool t := by
  unfold State.OnlyRacks at h
  unfold State.OnlyPool
  rw [h]

end

theorem onlyPool_setReceiver (i : Nat) (v : Option Receiver) : s.OnlyPool (s.setReceiver i v) := rfl

/-- From `s` to `t` the transaction on slot `n` ended and left the slot as `v`, with the notices given, and no record but a
receiver's was touched. -/
structure Identified (s t : State) (r : Rack) (n : Nat) (v : Slot) (probed : Bool) (notices : Port → List Notice) :
    Prop where
  docked : Docked s t r n v probed (s.rack r).queue
  told : Told s t [] notices
  frame : s.OnlyPool t

section
variable {s} {t : State} {r : Rack} {n : Nat} {v : Slot} {probed : Bool} {notices : Port → List Notice}

theorem identified_endedAt (s : State) (r : Rack) (n : Nat) :
    Identified s (s.endedAt r n) r n { s.slot r n with retry := false } (s.slot r n).state.probed toNone :=
  ⟨docked_endedAt s r n, told_endedAt r n, (onlyRacks_endedAt s r n).pool⟩

theorem Identified.setReceiver (h : Identified s t r n v probed notices) (i : Nat) (w : Option Receiver) :
    Identified s (t.setReceiver i w) r n v probed notices :=
  ⟨h.docked.same (setReceiver_rack t i w) rfl, h.told.of_same_ports (setReceiver_port t i w),
    h.frame.trans (onlyPool_setReceiver t i w)⟩

theorem Identified.setSlot (h : Identified s t r n v probed notices) (w : Slot) :
    Identified s (t.setSlot r n w) r n w (probed && w.state.probed) notices :=
  ⟨h.docked.setSlot w, h.told.of_same_ports (setSlot_port t r n w), h.frame.trans (onlyRacks_setSlot t r n w).pool⟩

theorem Identified.notifyRack (h : Identified s t r n v probed toNone) (e : Notice) :
    Identified s (t.notifyRack r e) r n v probed (toDesk r [e]) :=
  ⟨h.docked.same (notify_rack t _ e) (notify_profile t _ e), h.told.notifyRack r e,
    h.frame.trans (onlyRacks_notifyRack t r e).pool⟩

theorem Identified.notifyOps (h : Identified s t r n v probed notices) (e : Notice) :
    Identified s (t.notify .ops e) r n v probed (fun p => notices p ++ toOps [e] p) := by
  refine ⟨h.docked.same (notify_rack t _ e) (notify_profile t _ e), h.told.trans (told_notifyOps t e), h.frame.trans ?_⟩
  unfold State.OnlyPool
  ext <;> simp

end

-- What an ident makes of a slot (R116)

/-- A unit's return is in hand in the same slots when a transaction has ended. -/
theorem returnInHand_endedAt (r : Rack) (n serial : Nat) :
    (s.endedAt r n).returnInHand serial = s.returnInHand serial := by
  have hslot : ∀ x k, ((s.endedAt r n).slot x k).state = (s.slot x k).state ∧
      ((s.endedAt r n).slot x k).ident = (s.slot x k).ident := by
    intro x k
    rw [State.endedAt, slot_setSlot, slot_setBus]
    split
    next h => rw [h.1, h.2]; exact ⟨rfl, rfl⟩
    next => exact ⟨rfl, rfl⟩
  simp only [State.returnInHand, fun x k => (hslot x k).1, fun x k => (hslot x k).2]

theorem returnInHand_setReceiver (i : Nat) (v : Option Receiver) (serial : Nat) :
    (s.setReceiver i v).returnInHand serial = s.returnInHand serial := rfl

/-- The unit's record with the battery percent that its ident gave (R116). -/
def State.metered (s : State) (ident : Ident) : State :=
  match s.bySerial ident.serial with
  | some (i, w) => s.setReceiver i (some { w with battery := ident.battery })
  | none => s

/-- The slot written, and the notice if there is one. -/
def State.dockUnit (s : State) (r : Rack) (n : Nat) (action : Slot × List Notice) : State :=
  match action.2 with
  | [] => s.setSlot r n action.1
  | e :: _ => (s.setSlot r n action.1).notifyRack r e

/-- The slot of an ended transaction has its retry mark clear, whatever its ident makes of it. -/
def cleared (action : Slot × List Notice) : Slot × List Notice := ({ action.1 with retry := false }, action.2)

theorem bySerial_eq_none_or (serial : Nat) :
    s.bySerial serial = none ∨ ∃ i w, s.bySerial serial = some (i, w) := by
  cases s.bySerial serial with
  | none => exact .inl rfl
  | some e => exact .inr ⟨e.1, e.2, rfl⟩

/-- An ident acts as the table of R116 says. -/
theorem identDone_eq (r : Rack) (n : Nat) (ident : Ident) :
    (s.endedAt r n).identDone r n ident =
      ((s.endedAt r n).metered ident).dockUnit r n (cleared (identAction s n (s.slot r n) ident)) := by
  have hserial := endedAt_bySerial s r n ident.serial
  unfold State.identDone State.metered identAction
  rw [hserial]
  rcases bySerial_eq_none_or s ident.serial with hnone | ⟨i, w, hsome⟩
  · simp only [hnone, cleared, State.dockUnit, State.occupy, State.foreignUnit, endedAt_slot]
  · simp only [hsome]
    cases hstate : w.state with
    | stock | service =>
      by_cases hmark : ident.mark = .stock <;>
        simp [hmark, cleared, State.dockUnit, State.occupy, State.slotArrived, endedAt_slot]
    | issued ref l rack issued =>
      by_cases hreturn : s.returnInHand ident.serial = true <;>
        simp [hreturn, State.identIssued, returnInHand_setReceiver, returnInHand_endedAt, cleared, State.dockUnit,
          State.occupy, State.foreignUnit, endedAt_slot, State.now]
    | lost ref rack => simp [cleared, State.dockUnit, endedAt_slot]
    | pending ref l rack => simp [cleared, State.dockUnit, State.occupy, State.foreignUnit, endedAt_slot]

theorem metered_of_none {ident : Ident} (h : s.bySerial ident.serial = none) : s.metered ident = s := by
  simp only [State.metered, h]

theorem metered_of_some {ident : Ident} {i : Nat} {w : Receiver} (h : s.bySerial ident.serial = some (i, w)) :
    s.metered ident = s.setReceiver i (some { w with battery := ident.battery }) := by
  simp only [State.metered, h]

theorem dockUnit_receiver (r : Rack) (n : Nat) (action : Slot × List Notice) (i : Nat) :
    (s.dockUnit r n action).receiver i = s.receiver i := by
  unfold State.dockUnit
  split <;> simp

variable {s}

theorem Identified.metered {t : State} {r : Rack} {n : Nat} {v : Slot} {probed : Bool} {notices : Port → List Notice}
    (h : Identified s t r n v probed notices) (ident : Ident) : Identified s (t.metered ident) r n v probed notices := by
  unfold State.metered
  split
  · exact h.setReceiver _ _
  · exact h

/-- At most one notice tells of a unit. -/
theorem Identified.dockUnit {t : State} {r : Rack} {n : Nat} {v : Slot} {probed : Bool}
    (h : Identified s t r n v probed toNone) {action : Slot × List Notice} (hone : action.2.length ≤ 1) :
    Identified s (t.dockUnit r n action) r n action.1 (probed && action.1.state.probed) (toDesk r action.2) := by
  obtain ⟨w, notices⟩ := action
  match notices, hone with
  | [], _ =>
    have hslot := h.setSlot w
    exact ⟨hslot.docked, hslot.told.congr fun p => by simp [toDesk, toNone], hslot.frame⟩
  | [e], _ => exact (h.setSlot w).notifyRack e

theorem identAction_length (s : State) (n : Nat) (v : Slot) (ident : Ident) :
    (identAction s n v ident).2.length ≤ 1 := by
  unfold identAction
  dsimp only
  split
  · simp
  · split <;> (try split) <;> simp

-- The rows (R116, R117)

theorem identRow (s : State) (r : Rack) (n : Nat) (outcome : IdentOutcome) :
    exec (.identOutcome r n outcome) s =
      .next (s.hallEvent fun s => s.dockEnd r (fun t => t = .ident n) (outcome = .lineFault) fun _ s =>
        match outcome with
        | .done ident => s.identDone r n ident
        | .noAnswer | .lineFault => s.departSlot r n) := rfl

theorem repairRow (s : State) (r : Rack) (n : Nat) (outcome : DockOutcome) :
    exec (.repairMarkOutcome r n outcome) s =
      .next (s.hallEvent fun s => s.dockEnd r (fun t => t = .markRepair n) (outcome = .lineFault) fun _ s =>
        match outcome, (s.slot r n).ident with
        | .done, some ident => s.repairDone r n ident
        | _, _ => s.departSlot r n) := rfl

theorem ident_next {r : Rack} {n : Nat} (ident : Ident) (h : s.InFlight r (.ident n)) :
    exec (.identOutcome r n (.done ident)) s = .next (((s.endedAt r n).identDone r n ident).kickRack r).feedWork :=
  have hnext := dock_next (identRow s r n (.done ident)) h rfl (decide_eq_true rfl)
  hnext

theorem repair_next {r : Rack} {n : Nat} {ident : Ident} (h : s.InFlight r (.markRepair n))
    (hident : (s.slot r n).ident = some ident) :
    exec (.repairMarkOutcome r n .done) s = .next (((s.endedAt r n).repairDone r n ident).kickRack r).feedWork := by
  have hnext := dock_next (repairRow s r n .done) h rfl (decide_eq_true rfl)
  have hended : ((s.endedAt r n).slot r n).ident = some ident := by rw [endedAt_slot]; exact hident
  dsimp only [Transaction.slot] at hnext
  rw [hended] at hnext
  exact hnext

/-- Settles O50: an ident acts by the table of R116; a repaired unit goes on by the state of its record. -/
theorem unitsAreIdentified : Obligations.UnitsAreIdentified := by
  unfold Obligations.UnitsAreIdentified
  refine ⟨?ident, ?repair⟩
  case ident =>
    intro s r n ident hflight action
    have hidentified := ((identified_endedAt s r n).metered ident).dockUnit (action := cleared action)
      (identAction_length s n (s.slot r n) ident)
    rw [← identDone_eq] at hidentified
    have hfinished := hidentified.docked.finish (states := [(s.slot r n).state, action.1.state]) (by simp [cleared])
    refine ⟨_, ident_next ident hflight, hfinished.slot, hfinished.slots, fun i => ?_, hfinished.queue, hfinished.others,
      hfinished.chosen, hidentified.told.kicked r, hidentified.frame.trans (onlyRacks_kick _ r).pool⟩
    rw [feedWork_receiver, kickRack_receiver, identDone_eq, dockUnit_receiver]
    have hserial := endedAt_bySerial s r n ident.serial
    rcases bySerial_eq_none_or s ident.serial with hnone | ⟨j, w, hsome⟩
    · simp only [hnone, metered_of_none _ (hserial.trans hnone), endedAt_receiver]
    · simp only [hsome, metered_of_some _ (hserial.trans hsome), receiver_setReceiver, endedAt_receiver]
  case repair =>
    intro s r n ident hflight hident docked repaired
    have hclose : ∀ {u : State} {v : Slot} {notices : Port → List Notice} {pool : Nat → Option Receiver},
        (s.endedAt r n).repairDone r n ident = u →
        Identified s u r n v ((s.slot r n).state.probed && v.state.probed) notices →
        (∀ i, u.receiver i = pool i) → repaired v notices pool := by
      intro u v notices pool hu hidentified hpool
      have hfinished := hidentified.docked.finish (states := [(s.slot r n).state, v.state]) (by simp)
      exact ⟨_, (repair_next hflight hident).trans (by rw [hu]), hfinished.slot, hfinished.slots,
        fun i => by rw [feedWork_receiver, kickRack_receiver, hpool i], hfinished.queue, hfinished.others,
        hfinished.chosen, hidentified.told.kicked r, hidentified.frame.trans (onlyRacks_kick u r).pool⟩
    have hended := identified_endedAt s r n
    have hslot : ∀ mark, { (s.endedAt r n).slot r n with
        state := SlotState.occupied, ident := some { ident with mark := mark } } = docked mark := by
      intro mark
      rw [endedAt_slot]
    have hoccupy : ∀ mark, (s.endedAt r n).occupy r n { ident with mark := mark } =
        (s.endedAt r n).setSlot r n (docked mark) := fun mark => by rw [State.occupy, hslot]
    have hserial := endedAt_bySerial s r n ident.serial
    refine ⟨fun hnone => ?unknown, fun i w hsome => ⟨fun ref rack hlost => ?lost, fun hstock => ?stock,
      fun ref l rack hpending => ?pending, fun ref l rack issued hissued => ?issued⟩⟩
    case unknown =>
      refine hclose ?_ ((hended.setSlot (docked .stock)).notifyRack _) fun i => by simp
      rw [State.repairDone, hserial, hnone]
      exact congrArg (fun t => State.foreignUnit t r n _) (hoccupy .stock)
    case lost =>
      refine hclose (u := (((s.endedAt r n).setReceiver i (some { w with state := .stock })).setSlot r n
        (docked ident.mark)).notifyRack r _ |>.notify .ops _) ?_
        ((((hended.setReceiver i _).setSlot (docked ident.mark)).notifyRack _).notifyOps _)
        fun j => by simp [receiver_setReceiver]
      rw [State.repairDone, hserial, hsome]
      simp only [hlost, State.occupy]
      rw [← hslot]
      rfl
    case stock =>
      refine hclose ?_ ((hended.setSlot (docked .stock)).notifyRack _) fun i => by simp
      rw [State.repairDone, hserial, hsome]
      rcases hstock with hstate | hstate <;>
        simp only [hstate] <;> rw [hoccupy .stock, State.slotArrived, hstate]
    case pending =>
      refine hclose ?_ ((hended.setSlot (docked .stock)).notifyRack _) fun i => by simp
      rw [State.repairDone, hserial, hsome]
      simp only [hpending]
      rw [hoccupy .stock]
      rfl
    case issued =>
      have hrepair : (s.endedAt r n).repairDone r n ident =
          (s.endedAt r n).identIssued r n { ident with mark := .stock } := by
        rw [State.repairDone, hserial, hsome]
        simp only [hissued]
      split
      next hreturn =>
        refine hclose ?_ ((hended.setSlot (docked .stock)).notifyRack _) fun i => by simp
        rw [hrepair, State.identIssued, returnInHand_endedAt, if_pos hreturn, hoccupy .stock]
        rfl
      next hreturn =>
        refine hclose ?_ (hended.setSlot _) fun i => by simp
        rw [hrepair, State.identIssued, returnInHand_endedAt, if_neg hreturn, endedAt_slot, endedAt_now]
        rfl

end Sys2Proof.Machine
end

section
/-!
PROOFS. SlotCommandsClear: SLOT_CLEAR and RACK_RESET, and the outcome that a reset discards (R124, R125).
-/
namespace Sys2Proof.Machine

variable (s : State)

theorem onlyRacks_after (p : Port) (tag code : Byte) (v : Reply) : s.OnlyRacks (s.after p tag code v) := by
  unfold State.OnlyRacks
  rw [after_frame]

theorem badSlot_of_fitted {r : Rack} {slot : Byte} (h31 : slot.toNat ≤ 31) (hfit : s.slotFitted r slot.toNat = true) :
    badSlot s r slot = false := by
  obtain ⟨hrack, hlow⟩ : s.rackFitted r = true ∧ slot.toNat < s.profile.slots := by
    simpa [State.slotFitted] using hfit
  exact decide_eq_false (by simp [hrack]; omega)

-- SLOT_CLEAR (R124)

theorem doSlotClear_eq (r : Rack) (slot : Byte) :
    doSlotClear (deskOf r) [slot] s =
      if badSlot s r slot = true then refuse s .badArg
      else if (s.slot r slot.toNat).state ≠ .faulted then refuse s .wrongState
      else (s.setSlot r slot.toNat .initial, .bare .ok) := by
  unfold doSlotClear
  cases hbad : badSlot s r slot <;> simp [ownSlot_eq, hbad]

theorem doSlotClear_refused {r : Rack} {slot : Byte} {x : Result}
    (h : firstFailure [(badSlot s r slot, .badArg), ((s.slot r slot.toNat).state ≠ .faulted, .wrongState)] = some x) :
    doSlotClear (deskOf r) [slot] s = refuse s x := by
  simp only [firstFailure_cons, firstFailure_nil] at h
  rw [doSlotClear_eq]
  refine refuse_of_check s Iff.rfl h fun h => ?_
  exact refuse_of_check s (by simp) h fun h => nomatch h

theorem rack_setSlot_initial (r : Rack) (n : Nat) :
    (s.setSlot r n .initial).rack r = { s.rack r with slots := ((s.setSlot r n .initial).rack r).slots } := by
  unfold State.setSlot
  rw [rack_setRack_same]
  rfl

-- The failure of the queued issues (R125, step 2)

/-- A queue entry fails as R122 says, or is without its records and changes nothing (R125). -/
theorem resetIssue_cases (r : Rack) (q : QueuedIssue) :
    (∃ ref l i w ident, (s.slot r q.slot).issue = some ⟨ref, l⟩ ∧ (s.slot r q.slot).ident = some ident ∧
        s.bySerial ident.serial = some (i, w) ∧
        s.resetIssue r q =
          (s.failed r q.slot i w ref l).notifyRack r (.issueFailed q.slot w.serial ref l .reset)) ∨
      s.resetIssue r q = s ∧ FailsQueued s s r q := by
  cases hissue : (s.slot r q.slot).issue with
  | none => exact .inr ⟨by simp [State.resetIssue, State.failIssue, hissue], by simp [FailsQueued, hissue]⟩
  | some work =>
    cases hident : (s.slot r q.slot).ident with
    | none =>
      exact .inr ⟨by simp [State.resetIssue, State.failIssue, State.identReceiver, hissue, hident],
        by simp [FailsQueued, hissue, hident]⟩
    | some ident =>
      rcases bySerial_eq_none_or s ident.serial with hnone | ⟨i, w, hsome⟩
      · exact .inr ⟨by simp [State.resetIssue, State.failIssue, State.identReceiver, hissue, hident, hnone],
          by simp [FailsQueued, hissue, hident, hnone]⟩
      · exact .inl ⟨work.account, work.language, i, w, ident, rfl, rfl, hsome, failIssue_eq s hissue hident hsome r _ _⟩

theorem told_resetIssue (r : Rack) (q : QueuedIssue) :
    ∃ records notices, Told s (s.resetIssue r q) records (toDesk r notices) := by
  rcases resetIssue_cases s r q with ⟨ref, l, i, w, ident, _, _, _, h⟩ | ⟨h, _⟩
  · rw [h]
    exact ⟨_, _, (told_failed s r q.slot i w ref l).notifyRack r _⟩
  · rw [h]
    exact ⟨[], [], (Told.refl s).congr fun p => by simp [toDesk, toNone]⟩

theorem resetIssue_rack_ne {r x : Rack} (q : QueuedIssue) (hx : x ≠ r) : (s.resetIssue r q).rack x = s.rack x := by
  rcases resetIssue_cases s r q with ⟨ref, l, i, w, ident, _, _, _, h⟩ | ⟨h, _⟩
  · rw [h, notifyRack_eq, notify_rack, failed_rack, if_neg hx]
  · rw [h]

theorem onlyDocks_resetIssue (r : Rack) (q : QueuedIssue) : s.OnlyDocks (s.resetIssue r q) := by
  rcases resetIssue_cases s r q with ⟨ref, l, i, w, ident, _, _, _, h⟩ | ⟨h, _⟩
  · rw [h]
    exact (onlyDocks_failed s r q.slot i w ref l).trans (onlyRacks_notifyRack _ r _).docks
  · rw [h]
    rfl

theorem failed_feed (r : Rack) (n i : Nat) (w : Receiver) (ref : AccountRef) (l : Nat) :
    (s.failed r n i w ref l).feed = s.feed := by
  have hentry := removeEntry_read (s.setReceiver i (some { w with state := .stock })) (·.feed) ref i (by simp)
  simpa [State.failed, State.dropQueued] using hentry

/-- One queue entry of a reset fails (R122, R125). -/
theorem failsQueued_resetIssue (r : Rack) (q : QueuedIssue) : FailsQueued s (s.resetIssue r q) r q := by
  rcases resetIssue_cases s r q with ⟨ref, l, i, w, ident, hissue, hident, hserial, h⟩ | ⟨h, hfails⟩
  · have hframe := onlyDocks_resetIssue s r q
    have hfeed : (s.resetIssue r q).feed = s.feed := by rw [h, notifyRack_eq, notify_feed, failed_feed]
    unfold State.OnlyDocks at hframe
    rw [hfeed] at hframe
    simp only [FailsQueued, hissue, hident, Option.bind_some, hserial]
    refine ⟨?_, fun j hj => ?_, ?_, fun j hj => ?_, ?_, fun k hk => ?_, ?_, fun x hx => resetIssue_rack_ne s q hx, ?_,
      hframe⟩
    · simp [h, failed_receiver]
    · simp [h, failed_receiver, hj]
    · simp [h, failed_account, Account.without]
    · simp [h, failed_account, hj]
    · simp [h, failed_language]
    · simp [h, failed_language, hk]
    · simp [h, failed_rack]
    · rw [h]
      exact (told_failed s r q.slot i w ref l).notifyRack r _
  · rw [h]
    exact hfails

theorem failsEach_foldl (r : Rack) (qs : List QueuedIssue) :
    FailsEach r qs s (qs.foldl (State.resetIssue r) s) := by
  induction qs generalizing s with
  | nil => rfl
  | cons q rest ih => exact ⟨_, failsQueued_resetIssue s r q, ih _⟩

theorem onlyDocks_resets (r : Rack) (qs : List QueuedIssue) : s.OnlyDocks (qs.foldl (State.resetIssue r) s) := by
  refine List.foldlRecOn qs _ (motive := fun t => s.OnlyDocks t) rfl fun t ht q _ => ?_
  exact ht.trans (onlyDocks_resetIssue t r q)

theorem resets_rack_ne {r x : Rack} (qs : List QueuedIssue) (hx : x ≠ r) :
    (qs.foldl (State.resetIssue r) s).rack x = s.rack x := by
  refine List.foldlRecOn qs _ (motive := fun t => State.rack t x = s.rack x) rfl fun t ht q _ => ?_
  exact (resetIssue_rack_ne t q hx).trans ht

/-- What the failures of a reset tell, nothing with no issue queued. -/
theorem told_resets (r : Rack) (qs : List QueuedIssue) :
    ∃ records notices, Told s (qs.foldl (State.resetIssue r) s) records (toDesk r notices) ∧
      (qs = [] → notices = []) := by
  induction qs generalizing s with
  | nil => exact ⟨[], [], (Told.refl s).congr fun p => by simp [toDesk, toNone], fun _ => rfl⟩
  | cons q rest ih =>
    obtain ⟨records, notices, h⟩ := told_resetIssue s r q
    obtain ⟨records', notices', h', _⟩ := ih (s.resetIssue r q)
    exact ⟨_, _, h.trans_desk h', fun e => absurd e (List.cons_ne_nil q rest)⟩

-- RACK_RESET (R125)

/-- The engine as a reset leaves it, before it looks for work. -/
def State.engineReset (s : State) (r : Rack) : State :=
  ((s.rack r).queue.foldl (State.resetIssue r) s).setRack r ⟨[], [], s.fittedSlots r, (s.rack r).bus.drained⟩

theorem rackReset_eq (r : Rack) : s.rackReset r = (s.engineReset r).kickRack r := rfl

theorem engineReset_rack (r : Rack) :
    (s.engineReset r).rack r = ⟨[], [], s.fittedSlots r, (s.rack r).bus.drained⟩ := rack_setRack_same _ r _

theorem engineReset_rackFitted (r : Rack) : (s.engineReset r).rackFitted r = s.rackFitted r := by
  have hprofile : (s.engineReset r).profile = s.profile := by
    have h := onlyDocks_resets s r (s.rack r).queue
    unfold State.OnlyDocks at h
    rw [State.engineReset, setRack_profile, h]
  unfold State.rackFitted
  rw [hprofile]

/-- An engine that was idle starts the PROBE of slot 0 (R125). -/
theorem rackReset_idle {r : Rack} (hfit : s.rackFitted r = true) (hslots : 0 < s.profile.slots)
    (hbus : (s.rack r).bus = .idle) :
    (s.rackReset r).rack r = ⟨[], [], (List.range s.profile.slots).drop 1, .busy (.probe 0)⟩ := by
  have hfitted : s.fittedSlots r = 0 :: (List.range s.profile.slots).drop 1 := by
    obtain ⟨k, hk⟩ := Nat.exists_eq_add_of_le' hslots
    rw [State.fittedSlots, if_pos hfit, hk, List.range_succ_eq_map]
    rfl
  have hreset := engineReset_rack s r
  rw [hfitted, hbus] at hreset
  have hchosen := chosen_kickRack (s := s.engineReset r) (r := r) (by rw [engineReset_rackFitted, hfit])
    (by rw [hreset]; rfl)
  have hsame := slots_kickRack (s.engineReset r) r
  have hqueue := kickRack_queue (s.engineReset r) r r
  have hwork : workOf ((s.engineReset r).kickRack r) r = none := by
    refine workOf_eq_none _ (by rw [hqueue, hreset]) fun n _ => ?_
    rw [kickRack_slot, State.slot, hreset]
    exact ⟨SlotState.noConfusion, SlotState.noConfusion⟩
  unfold Chosen at hchosen
  rw [hreset] at hchosen hsame hqueue
  simp only [hwork] at hchosen
  obtain ⟨hbusy, hdue⟩ := hchosen
  rw [rackReset_eq]
  generalize ((s.engineReset r).kickRack r).rack r = e at hsame hqueue hbusy hdue
  obtain ⟨slots, queue, due, bus⟩ := e
  dsimp only at hsame hqueue hbusy hdue
  rw [hsame, hqueue, hbusy, hdue]

/-- An engine that was not idle discards the outcome to come (R125). -/
theorem rackReset_draining {r : Rack} {w : Transaction} (hfit : s.rackFitted r = true)
    (hbus : (s.rack r).bus.drained = .draining w) :
    (s.rackReset r).rack r = ⟨[], [], List.range s.profile.slots, .draining w⟩ := by
  have hreset := engineReset_rack s r
  rw [State.fittedSlots, if_pos hfit, hbus] at hreset
  rw [rackReset_eq, kickRack_of_busy _ (.inl (by rw [hreset]; exact Bus.noConfusion)), hreset]

-- The outcome that a reset discards (R125, step 1)

/-- Every outcome of a transaction ends it by the rule of R109. -/
theorem exec_outcomeOf {r : Rack} {w : Transaction} {ident : Ident} {event : Instr}
    (h : event = doneOf r ident w ∨ event = noAnswerOf r w ∨ event = lineFaultOf r w) :
    ∃ answers lineFault own,
      exec event s = .next (s.hallEvent fun s => s.dockEnd r answers lineFault own) ∧ answers w = true := by
  rcases h with rfl | rfl | rfl
  · cases w <;> exact ⟨_, _, _, rfl, by simp [Transaction.kind, Transaction.slot]⟩
  · cases w <;> exact ⟨_, _, _, rfl, by simp [Transaction.kind, Transaction.slot]⟩
  · obtain ⟨answers, own, hexec, hanswers⟩ := exec_lineFaultOf s r w
    exact ⟨answers, true, own, hexec, hanswers⟩

/-- Settles O48: the commands make their checks; a reset fails the queue entry by entry; a discarded outcome frees the bus. -/
theorem slotCommandsClear : Obligations.SlotCommandsClear := by
  unfold Obligations.SlotCommandsClear
  refine ⟨fun s r tag slot ht => ⟨?clearRefused, ?resetRefused⟩,
    fun s r tag slot ht => ⟨fun h31 hfit hfaulted => ?clears, fun hfit hslots => ?resets⟩,
    fun s r w ident event hrun hfit hbus hevent => ?discards⟩
  case clearRefused =>
    exact refusedBy_own (name := .slotClear) (f := doSlotClear (deskOf r) [slot]) rfl ht (by cases r <;> rfl) rfl
      fun x hx => doSlotClear_refused s hx
  case resetRefused =>
    refine refusedBy_own (name := .rackReset) (f := doRackReset (deskOf r) []) rfl ht (by cases r <;> rfl) rfl
      fun x hx => ?_
    simp only [firstFailure_cons, firstFailure_nil] at hx
    rw [doRackReset, ownRack_deskOf]
    exact refuse_of_check s (by simp) hx fun h => nomatch h
  case clears =>
    have hown : doSlotClear (deskOf r) [slot] s = (s.setSlot r slot.toNat .initial, .bare .ok) := by
      rw [doSlotClear_eq, badSlot_of_fitted s h31 hfit, if_neg Bool.false_ne_true, if_neg (not_not.mpr hfaulted)]
    refine ⟨_, client_next (name := .slotClear) ht (by cases r <;> rfl) rfl hown, ?_, fun n hn => ?_, ?_, fun x hx => ?_,
      answered_after (.of_ports (setSlot_port s r _ _)), (onlyRacks_setSlot s r _ _).trans (onlyRacks_after _ _ _ _ _)⟩
    · rw [after_slot, slot_setSlot_same]
      rfl
    · rw [after_slot, slot_setSlot, if_neg fun h => hn h.2]
    · rw [after_rack]
      exact rack_setSlot_initial s r _
    · rw [after_rack, State.setSlot, rack_setRack, if_neg hx]
  case resets =>
    have hown : doRackReset (deskOf r) [] s = (s.rackReset r, .bare .ok) := by
      rw [doRackReset, ownRack_deskOf]
      simp [hfit]
    obtain ⟨records, notices, htold, hnone⟩ := told_resets s r (s.rack r).queue
    have hframe := onlyDocks_resets s r (s.rack r).queue
    have heach := failsEach_foldl s r (s.rack r).queue
    have hothers : ∀ x, x ≠ r → ((s.rack r).queue.foldl (State.resetIssue r) s).rack x = s.rack x := fun x hx =>
      resets_rack_ne s (s.rack r).queue hx
    have hquiet : (s.rack r).queue = [] → (s.rack r).queue.foldl (State.resetIssue r) s = s := fun h => by rw [h]; rfl
    have hports : ∀ p, (s.rackReset r).port p = ((s.rack r).queue.foldl (State.resetIssue r) s).port p := fun p => by
      rw [rackReset_eq, kickRack_port, State.engineReset, setRack_port]
    refine ⟨_, notices, client_next (name := .rackReset) ht (by cases r <;> rfl) rfl hown, ?_, fun x hx => ?_,
      ⟨records, answered_after (htold.of_same_ports hports)⟩,
      ⟨_, heach, ?_, ?_, ?_, answered_after ((Told.refl _).of_same_ports hports)⟩,
      fun h => ⟨hnone h, ?_, ?_, ?_⟩, ?_⟩
    · rw [after_rack]
      cases hbus : (s.rack r).bus with
      | idle => exact rackReset_idle s hfit hslots hbus
      | busy w | draining w => exact rackReset_draining s hfit (by rw [hbus]; rfl)
    · rw [after_rack, rackReset_eq, kickRack_rack_ne _ hx, State.engineReset, rack_setRack, if_neg hx, hothers x hx]
    · simp [rackReset_eq, State.engineReset]
    · simp [rackReset_eq, State.engineReset]
    · simp [rackReset_eq, State.engineReset]
    · simp [rackReset_eq, State.engineReset, hquiet h]
    · simp [rackReset_eq, State.engineReset, hquiet h]
    · simp [rackReset_eq, State.engineReset, hquiet h]
    · obtain ⟨bus, due, hkick⟩ := kickRack_eq (s.engineReset r) r
      rw [rackReset_eq, hkick]
      exact (((hframe.trans (onlyRacks_setRack _ r _).docks).trans (onlyRacks_setRack _ r _).docks).trans
        (onlyRacks_after _ _ _ _ _).docks)
  case discards =>
    obtain ⟨answers, lineFault, own, hexec, hanswers⟩ := exec_outcomeOf s hevent
    have hdocked := docked_setBus s r 0
    have hchosen := chosen_kickRack (s := s.setBus r .idle) (r := r) (by rw [setBus_rackFitted, hfit]) hdocked.bus
    rw [due_setBus] at hchosen
    refine ⟨_, event_next hexec hrun (dockEnd_drained lineFault hbus hanswers), ?_, ?_,
      chosen_congr (feedWork_rack _ r) (feedWork_language _) hchosen, fun x hx => ?_,
      (onlyEngines_setRack s r _).trans (onlyEngines_kick _ r)⟩
    · rw [feedWork_rack, slots_kickRack, State.setBus, rack_setRack_same]
    · rw [feedWork_rack, kickRack_queue, queue_setBus]
    · rw [feedWork_rack, kickRack_rack_ne _ hx, hdocked.others x hx]

end Sys2Proof.Machine
end

section
/-!
PROOFS. IssueAccepted: ISSUE (R118, R119).
-/
namespace Sys2Proof.Machine

variable (s : State)

-- The checks of ISSUE (R118)

/-- The unit that an ISSUE would issue is missing exactly when the fourth check fails (R118). -/
theorem issuable_eq_none_iff (v : Slot) :
    s.issuable v = none ↔ v.state ≠ .occupied ∨ (dockedRecord s v).map (·.state) ≠ some .stock := by
  obtain ⟨state, ident, returned, issue, retry, miss⟩ := v
  unfold State.issuable dockedRecord State.identReceiver
  cases ident with
  | none => cases state <;> simp
  | some d =>
    rcases bySerial_eq_none_or s d.serial with hnone | ⟨i, w, hsome⟩
    · cases state <;> simp [hnone]
    · by_cases hstock : w.state = .stock <;> cases state <;> simp [hsome, hstock]

theorem issuable_ident {v : Slot} {e : Nat × Receiver × Ident} (h : s.issuable v = some e) :
    v.ident = some e.2.2 := by
  unfold State.issuable at h
  split at h
  next hident _ =>
    split at h
    · rw [hident, ← Option.some.inj h]
    · exact nomatch h
  next => exact nomatch h

theorem issuable_eq_some {v : Slot} {ident : Ident} {i : Nat} {w : Receiver} (hstate : v.state = .occupied)
    (hident : v.ident = some ident) (hserial : s.bySerial ident.serial = some (i, w)) (hstock : w.state = .stock) :
    s.issuable v = some (i, w, ident) := by
  simp [State.issuable, State.identReceiver, hstate, hident, hserial, hstock]

/-- ISSUE makes the checks of R118 one after another, and accepts the issue (R119). -/
theorem doIssue_eq (r : Rack) (hi lo g slot lang : Byte) :
    doIssue (deskOf r) [hi, lo, g, slot, lang] s =
      if 1023 < (refOf hi lo g).index ∨ badSlot s r slot = true ∨ 31 < lang.toNat then refuse s .badArg
      else
        (s.openAccount (refOf hi lo g)).elim (refuse s .noRecord) fun o =>
          if o.snapshot.issueLimit ≤ o.entries.length then refuse s .limit
          else
            (s.issuable (s.slot r slot.toNat)).elim (refuse s .wrongState) fun e =>
              if e.2.2.battery < s.profile.batteryThreshold then refuse s .lowBattery
              else if !(s.language lang.toNat).defined || (s.language lang.toNat).channel.isNone then
                refuse s .noChannel
              else if Config.queueLimit ≤ (s.rack r).queue.length then refuse s .queueFull
              else (s.acceptIssue r (refOf hi lo g) o slot.toNat lang.toNat e.1 e.2.1, .bare .accepted) := by
  unfold doIssue
  dsimp only
  rw [ownSlot_eq]
  cases hbad : badSlot s r slot with
  | true => simp
  | false =>
    cases s.openAccount (refOf hi lo g) with
    | none => simp
    | some o =>
      cases hissuable : s.issuable (s.slot r slot.toNat) with
      | none => simp [hissuable]
      | some e => simp [hissuable]

/-- The first check that fails decides the refusal (R118). -/
theorem doIssue_refused {r : Rack} {hi lo g slot lang : Byte} {x : Result}
    (h : firstFailure (issueChecks s r (refOf hi lo g) slot lang) = some x) :
    doIssue (deskOf r) [hi, lo, g, slot, lang] s = refuse s x := by
  simp only [issueChecks, firstFailure_cons, firstFailure_nil] at h
  rw [doIssue_eq]
  refine refuse_of_check s (by simp) h fun h => ?_
  cases hopen : s.openAccount (refOf hi lo g) with
  | none =>
    rw [if_pos ((openAccount_eq_none_iff s _).mp hopen)] at h
    rw [← Option.some.inj h]
    rfl
  | some o =>
    rw [if_neg ((openAccount_eq_none_iff s _).not.mp (by simp [hopen])), account_of_openAccount s hopen] at h
    refine refuse_of_check s (by simp) h fun h => ?_
    cases hissuable : s.issuable (s.slot r slot.toNat) with
    | none =>
      rw [if_pos (decide_eq_true ((issuable_eq_none_iff s _).mp hissuable))] at h
      rw [← Option.some.inj h]
      rfl
    | some e =>
      have hnot := (issuable_eq_none_iff s (s.slot r slot.toNat)).not.mp (by simp [hissuable])
      rw [if_neg (by simpa only [decide_eq_true_eq] using hnot), issuable_ident s hissuable] at h
      refine refuse_of_check s (by simp) h fun h => ?_
      refine refuse_of_check s (by simp) h fun h => ?_
      exact refuse_of_check s (by simp [Config.queueLimit]) h fun h => nomatch h

-- The acceptance (R119)

/-- The slot of an accepted issue (R119). -/
def Slot.issuing (v : Slot) (ref : AccountRef) (l : Nat) : Slot :=
  { v with state := .issuing, issue := some ⟨ref, l⟩, miss := false }

/-- An issue is accepted and in the queue, before the engine looks for work (R119). -/
def State.issueQueued (s : State) (r : Rack) (ref : AccountRef) (o : OpenAccount) (n l i : Nat) (w : Receiver) : State :=
  let b := ((s.setReceiver i (some { w with state := .pending ref l r })).setOpen ref
    { o with entries := o.entries ++ [⟨i, false⟩] }).addListener l
  let c := b.setSlot r n ((s.slot r n).issuing ref l)
  c.setRack r { c.rack r with queue := (s.rack r).queue ++ [⟨n, ref, l, none⟩] }

section
variable (r : Rack) (ref : AccountRef) (o : OpenAccount) (n l i : Nat) (w : Receiver)

theorem acceptIssue_eq : s.acceptIssue r ref o n l i w = (s.issueQueued r ref o n l i w).kickRack r := by
  simp [State.acceptIssue, State.issueQueued, State.addListener, Slot.issuing, State.slot]

theorem issueQueued_slot (k : Nat) :
    (s.issueQueued r ref o n l i w).slot r k = if k = n then (s.slot r n).issuing ref l else s.slot r k := by
  simp only [State.issueQueued]
  rw [slot_setRack, if_pos rfl]
  refine (slot_setSlot _ r r n k _).trans ?_
  simp [State.addListener, State.slot]

theorem issueQueued_engine :
    ((s.issueQueued r ref o n l i w).rack r).queue = (s.rack r).queue ++ [⟨n, ref, l, none⟩] ∧
      ((s.issueQueued r ref o n l i w).rack r).bus = (s.rack r).bus ∧
      ((s.issueQueued r ref o n l i w).rack r).due = (s.rack r).due := by
  simp [State.issueQueued, State.addListener, due_setSlot, Slot.issuing, SlotState.probed]

theorem issueQueued_rack_ne {x : Rack} (hx : x ≠ r) : (s.issueQueued r ref o n l i w).rack x = s.rack x := by
  simp [State.issueQueued, State.addListener, State.setSlot, rack_setRack, hx]

theorem issueQueued_receiver (j : Nat) :
    (s.issueQueued r ref o n l i w).receiver j =
      if j = i then some { w with state := .pending ref l r } else s.receiver j := by
  simp [State.issueQueued, State.addListener, receiver_setReceiver]

theorem issueQueued_account (j : Nat) :
    (s.issueQueued r ref o n l i w).account j =
      if j = ref.index then
        { s.account ref.index with account := some { o with entries := o.entries ++ [⟨i, false⟩] } }
      else s.account j := by
  simp [State.issueQueued, State.addListener, account_setAccount]

theorem issueQueued_language (k : Nat) :
    (s.issueQueued r ref o n l i w).language k =
      if k = l then { s.language l with listeners := (s.language l).listeners + 1 } else s.language k := by
  simp [State.issueQueued, State.addListener, language_setLanguage]

/-- An accepted issue clears the reservations on the account and on the language (R191, R193). -/
theorem told_issueQueued (hopen : (s.account ref.index).account = some o) :
    Told s (s.issueQueued r ref o n l i w) [.account ref.index, .language l] toNone := by
  have hreceiver : Told s (s.setReceiver i (some { w with state := .pending ref l r })) [] toNone :=
    .of_ports (setReceiver_port s i _)
  have haccount := told_setAccount (s.setReceiver i (some { w with state := .pending ref l r })) ref.index
    { s.account ref.index with account := some { o with entries := o.entries ++ [⟨i, false⟩] } }
  rw [setReceiver_account, if_neg (by simp [Account.view, hopen])] at haccount
  have hbump : ∀ u : State, Told u (u.addListener l) [.language l] toNone := fun u =>
    told_setLanguage_of_ne u l _ fun h => absurd (congrArg Language.listeners h) (Nat.succ_ne_self _)
  have hall := (hreceiver.trans_silent haccount).trans_silent (hbump _)
  exact (hall.of_same_ports (setSlot_port _ r n _)).of_same_ports (setRack_port _ r _)

theorem onlyDocks_issueQueued : s.OnlyDocks (s.issueQueued r ref o n l i w) :=
  ((((onlyDocks_setReceiver s i _).trans (onlyDocks_setAccount _ _ _)).trans (onlyDocks_setLanguage _ l _)).trans
    (onlyRacks_setSlot _ r n _).docks).trans (onlyRacks_setRack _ r _).docks

end

/-- Settles O46: ISSUE makes its checks in order, and an accepted issue joins the queue before the engine looks for work. -/
theorem issueAccepted : Obligations.IssueAccepted := by
  unfold Obligations.IssueAccepted
  refine ⟨fun s r tag hi lo g slot lang ht => ?refused, ?accepted⟩
  case refused =>
    exact refusedBy_own (name := .issue) (f := doIssue (deskOf r) [hi, lo, g, slot, lang]) rfl ht (by cases r <;> rfl) rfl
      fun x hx => doIssue_refused s hx
  case accepted =>
    intro s r tag hi lo g slot lang o i w ident ref p n l ht hindex hn hfit hl haccount hlimit hoccupied hident hserial
      hstock hbattery hdefined hchannel hqueue
    have hrack : s.rackFitted r = true := by
      unfold State.slotFitted at hfit
      exact (Bool.and_eq_true_iff.mp hfit).1
    have hown : doIssue p [hi, lo, g, slot, lang] s =
        ((s.issueQueued r ref o n l i w).kickRack r, .bare .accepted) := by
      rw [doIssue_eq, badSlot_of_fitted s hn hfit, ← acceptIssue_eq]
      rw [show s.openAccount (refOf hi lo g) = some o from openAccount_of_account s haccount,
        issuable_eq_some s hoccupied hident hserial hstock]
      simp [Config.queueLimit, hdefined, hchannel, Nat.not_lt.mpr hbattery, Nat.not_le.mpr hlimit, Nat.not_le.mpr hqueue,
        Nat.not_lt.mpr hl, Nat.not_lt.mpr hindex, refOf, num2, ref, n, l]
    obtain ⟨hjoined, hbus, hdue⟩ := issueQueued_engine s r ref o n l i w
    have htold := told_issueQueued s r ref o n l i w (by rw [haccount])
    have hframe := onlyDocks_issueQueued s r ref o n l i w
    refine ⟨_, client_next (name := .issue) ht (by cases r <;> rfl) rfl hown, ?_, fun j hj => ?_, ?_, fun j hj => ?_, ?_,
      fun k hk => ?_, ?_, fun m hm => ?_, ?_, fun x hx => ?_, fun hbusy => ?_, fun hidle => ?_,
      answered_after (htold.of_same_ports (kickRack_port _ r)), ?_⟩
    · simp [issueQueued_receiver]
    · simp [issueQueued_receiver, hj]
    · simp [issueQueued_account, haccount]
    · simp [issueQueued_account, hj]
    · simp [issueQueued_language]
    · simp [issueQueued_language, hk]
    · simp [issueQueued_slot, Slot.issuing]
    · simp [issueQueued_slot, hm]
    · rw [after_rack, kickRack_queue, hjoined]
    · rw [after_rack, kickRack_rack_ne _ hx, issueQueued_rack_ne s r ref o n l i w hx]
    · rw [after_rack, kickRack_of_busy _ (.inl (by rw [hbus]; exact hbusy))]
      exact ⟨hbus, hdue⟩
    · have hfitted : (s.issueQueued r ref o n l i w).rackFitted r = true := by
        rw [State.issueQueued]
        simp [State.addListener, hrack]
      have hchosen := chosen_kickRack hfitted (hbus.trans hidle)
      rw [hdue] at hchosen
      exact chosen_congr (after_rack _ _ _ _ _ r) (after_language _ _ _ _ _) hchosen
    · obtain ⟨bus, due, hkick⟩ := kickRack_eq (s.issueQueued r ref o n l i w) r
      rw [hkick]
      exact (hframe.trans (onlyRacks_setRack _ r _).docks).trans (onlyRacks_after _ _ _ _ _).docks

end Sys2Proof.Machine
end

section
/-!
PROOFS. ReturnIsDecided: the commit decision of a return (R150 to R153).
-/
namespace Sys2Proof.Machine

variable {s : State}

/-- A step that leaves the clock, the buffers, the accounts and the reports alone, before a settlement (R163). -/
theorem settled_from {s t u : State} {ref : AccountRef} {r : Rack} {v : Settlement} (h : Settled t u ref r v)
    (hbuffer : ∀ x, t.buffer x = s.buffer x) (haccount : ∀ j, t.account j = s.account j)
    (hreport : ∀ k, t.report k = s.report k) : Settled s u ref r v := by
  simpa only [Settled, hbuffer, haccount, hreport] using h

theorem Docked.commit {t : State} {r : Rack} {n : Nat} {v : Slot} {probed : Bool} {queue : List QueuedIssue}
    (h : Docked s t r n v probed queue) (w : ReturnWork) :
    Docked s (t.commit r n w) r n w.committedSlot probed queue := by
  obtain ⟨hqueue, hbus, hdue⟩ := commit_rack_same t r n w
  refine ⟨?_, fun m hm => ?_, hqueue.trans h.queue, hbus.trans h.bus, hdue.trans h.due,
    fun x hx => (commit_rack_ne t r n w hx).trans (h.others x hx), ?_⟩
  · rw [commit_slot, if_pos ⟨rfl, rfl⟩]
  · rw [commit_slot, if_neg fun e => hm e.2, h.slots m hm]
  · rw [commit_frame]
    exact h.profile

/-- As `OnlyDocks`, with the settlement buffers and the report counters. -/
def State.OnlyHires (s t : State) : Prop :=
  t = { s with
    receivers := t.receivers, accounts := t.accounts, languages := t.languages, bufferA := t.bufferA,
    bufferB := t.bufferB, reports := t.reports, rackA := t.rackA, rackB := t.rackB, opsPort := t.opsPort,
    deskAPort := t.deskAPort, deskBPort := t.deskBPort, feed := t.feed }

theorem State.OnlyHires.trans {t u : State} (h : s.OnlyHires t) (h' : t.OnlyHires u) : s.OnlyHires u := by
  unfold State.OnlyHires at *
  rw [h] at h'
  exact h'

theorem State.OnlyRacks.hires {t : State} (h : s.OnlyRacks t) : s.OnlyHires t := by
  unfold State.OnlyRacks at h
  unfold State.OnlyHires
  rw [h]

theorem onlyHires_commit (s : State) (r : Rack) (n : Nat) (w : ReturnWork) : s.OnlyHires (s.commit r n w) := by
  unfold State.OnlyHires
  rw [commit_frame]

-- The row (R150)

/-- The MARK stock of the return in slot `n` is done: the transaction has ended, and the ident's hire mark is stock (R150). -/
def State.markedAt (s : State) (r : Rack) (n : Nat) (ident : Ident) : State :=
  (s.endedAt r n).setSlot r n { s.slot r n with ident := some { ident with mark := .stock }, retry := false }

theorem returnMarkRow (s : State) (r : Rack) (n : Nat) (outcome : DockOutcome) :
    exec (.returnMarkOutcome r n outcome) s =
      .next (s.hallEvent fun s => s.dockEnd r (fun t => t = .markReturn n) (outcome = .lineFault) fun _ s =>
        if outcome = .done then s.returnMarked r n else s.departSlot r n) := rfl

theorem returnMark_next {r : Rack} {n : Nat} (h : s.InFlight r (.markReturn n)) :
    exec (.returnMarkOutcome r n .done) s = .next (((s.endedAt r n).returnMarked r n).kickRack r).feedWork :=
  have hnext := dock_next (returnMarkRow s r n .done) h rfl (decide_eq_true rfl)
  hnext

section
variable (s) (r : Rack) (n : Nat) (ident : Ident)

theorem markedAt_slot : (s.markedAt r n ident).slot r n =
    { s.slot r n with ident := some { ident with mark := .stock }, retry := false } := slot_setSlot_same _ r n _

@[simp] theorem markedAt_account (j : Nat) : (s.markedAt r n ident).account j = s.account j := by simp [State.markedAt]

@[simp] theorem markedAt_receiver (j : Nat) : (s.markedAt r n ident).receiver j = s.receiver j := by
  simp [State.markedAt]

@[simp] theorem markedAt_language (l : Nat) : (s.markedAt r n ident).language l = s.language l := by
  simp [State.markedAt]

@[simp] theorem markedAt_buffer (x : Rack) : (s.markedAt r n ident).buffer x = s.buffer x := by simp [State.markedAt]

@[simp] theorem markedAt_report (k : Nat) : (s.markedAt r n ident).report k = s.report k := by simp [State.markedAt]

@[simp] theorem markedAt_reports : (s.markedAt r n ident).reports = s.reports := by simp [State.markedAt]

@[simp] theorem markedAt_profile : (s.markedAt r n ident).profile = s.profile := by simp [State.markedAt]

theorem settled_markedAt (ref : AccountRef) (o : OpenAccount) :
    settled (s.markedAt r n ident) ref o r = settled s ref o r := by
  simp [settled, State.markedAt]

theorem told_markedAt : Told s (s.markedAt r n ident) [] toNone :=
  (told_endedAt r n).of_same_ports (setSlot_port _ r n _)

theorem onlyRacks_markedAt : s.OnlyRacks (s.markedAt r n ident) :=
  (onlyRacks_endedAt s r n).trans (onlyRacks_setSlot _ r n _)

theorem docked_markedAt :
    Docked s (s.markedAt r n ident) r n
      { s.slot r n with ident := some { ident with mark := .stock }, retry := false } (s.slot r n).state.probed
      (s.rack r).queue := by
  have h := (docked_endedAt s r n).setSlot
    { s.slot r n with ident := some { ident with mark := .stock }, retry := false }
  rwa [Bool.and_self] at h

end

/-- The return whose records the premises of ReturnIsDecided name. -/
abbrev State.returning (s : State) (r : Rack) (n i l : Nat) (ident : Ident) (time issued : Stamp) (w : Receiver)
    (ref : AccountRef) (o : OpenAccount) : ReturnWork :=
  ⟨(s.markedAt r n ident).slot r n, { ident with mark := .stock }, time, i, w, ref, l, issued, o⟩

/-- The return is decided as it stands when its MARK stock is done (R150, R151). -/
theorem returnMarked_eq {r rack : Rack} {n i l : Nat} {ident : Ident} {time issued : Stamp} {w : Receiver}
    {ref : AccountRef} {o : OpenAccount} (hident : (s.slot r n).ident = some ident)
    (htime : (s.slot r n).returned = some time) (hserial : s.bySerial ident.serial = some (i, w))
    (hstate : w.state = .issued ref l rack issued) (haccount : s.account ref.index = ⟨ref.generation, some o⟩) :
    (s.endedAt r n).returnMarked r n =
      (s.markedAt r n ident).decideReturn r n (s.returning r n i l ident time issued w ref o) := by
  have hmarked : (s.endedAt r n).setSlot r n
      { (s.endedAt r n).slot r n with
        ident := ((s.endedAt r n).slot r n).ident.map fun i => { i with mark := .stock } } =
      s.markedAt r n ident := by
    rw [State.markedAt, endedAt_slot, hident]
    rfl
  have hwork : (s.markedAt r n ident).returnWork r n = some (s.returning r n i l ident time issued w ref o) :=
    returnWork_eq_some (by rw [markedAt_slot]) (by rw [markedAt_slot]; exact htime)
      (by rw [State.markedAt, setSlot_bySerial, endedAt_bySerial]; exact hserial) hstate
      (openAccount_of_account _ (by rw [markedAt_account, haccount]))
  unfold State.returnMarked
  dsimp only
  rw [hmarked, hwork]

/-- Settles O52: the MARK stock done, the return commits, settles or is held by its rack's buffer. -/
theorem returnIsDecided : Obligations.ReturnIsDecided := by
  unfold Obligations.ReturnIsDecided
  intro s r rack n i l ident time issued w ref o hflight hident htime hserial hstate haccount v exact amount after done
    docks commits records
  let m := s.markedAt r n ident
  let work := s.returning r n i l ident time issued w ref o
  have hcloses : work.closes = decide (o.entries.map (·.receiver) = [i]) := rfl
  have hdecided := returnMarked_eq hident htime hserial hstate haccount
  have hnext := returnMark_next hflight
  have hstates : [v.state].all SlotState.probed = v.state.probed := by simp
  have hdocks : ∀ {u : State} {slot : Slot}, Docked s u r n slot v.state.probed (s.rack r).queue → s.OnlyHires u →
      docks (u.kickRack r).feedWork slot := by
    intro u slot hdocked hframe
    have hfinished := hdocked.finish hstates
    exact ⟨hfinished.slot, hfinished.slots, hfinished.queue, hfinished.others, hfinished.chosen,
      hframe.trans (onlyRacks_kick u r).hires⟩
  have hcommits : commits ((m.commit r n work).kickRack r).feedWork := by
    have hslot : work.committedSlot =
        { v with
          state := .occupied, ident := some { ident with mark := .stock }, returned := none, miss := false
          retry := false } := by
      rw [ReturnWork.committedSlot, show work.slot = _ from markedAt_slot s r n ident]
    refine ⟨hdocks (hslot ▸ (docked_markedAt s r n ident).commit work)
      ((onlyRacks_markedAt s r n ident).hires.trans (onlyHires_commit m r n work)), ?_, fun j hj => ?_, ?_,
      fun k hk => ?_⟩
    · rw [feedWork_receiver, kickRack_receiver, commit_receiver, if_pos (show i = work.index from rfl)]
      simp [State.returned, m, work]
    · rw [feedWork_receiver, kickRack_receiver, commit_receiver, if_neg (show j ≠ work.index from hj), markedAt_receiver]
    · rw [feedWork_language, kickRack_language, commit_language, if_pos (show l = work.language from rfl),
        markedAt_language]
    · rw [feedWork_language, kickRack_language, commit_language, if_neg (show k ≠ work.language from hk), markedAt_language]
  have htold := told_commit m r n work
  have hrecords : accountRecords m ref.index { m.account ref.index with account := some work.charged } =
      accountRecords s ref.index ⟨ref.generation, some after⟩ := by
    rw [show after = work.charged from rfl, accountRecords, accountRecords, markedAt_account, haccount]
  rw [listenerRecords_congr (markedAt_language s r n ident _), settled_markedAt, ReturnWork.doneNotice,
    show accountRecords m work.account.index _ = _ from hrecords] at htold
  have htold := (told_markedAt s r n ident).trans htold
  refine ⟨fun hopen => ?stays, fun hlast hempty => ?settles, fun hlast hfull => ?held⟩
  case stays =>
    have hfalse : work.closes = false := hcloses.trans (decide_eq_false hopen)
    have hu : (s.endedAt r n).returnMarked r n = m.commit r n work := by
      rw [hdecided, State.decideReturn, show (s.returning r n i l ident time issued w ref o).closes = false from hfalse]
      rfl
    obtain ⟨haccounts, hothers, hbuffers, hreports⟩ := commit_leaves_open m r n work hfalse
    rw [hfalse] at htold
    refine ⟨_, hu ▸ hnext, hcommits, ?_, fun j hj => ?_, fun x => ?_, ?_, ?_⟩
    · rw [feedWork_account, kickRack_account]
      exact haccounts.trans (by rw [markedAt_account, show work.account = ref from rfl, haccount]; rfl)
    · rw [feedWork_account, kickRack_account, hothers j hj, markedAt_account]
    · rw [feedWork_buffer, kickRack_buffer, hbuffers, markedAt_buffer]
    · rw [feedWork_reports, kickRack_reports, hreports, markedAt_reports]
    · exact (htold.kicked r).congr fun p => rfl
  case settles =>
    have htrue : work.closes = true := hcloses.trans (decide_eq_true hlast)
    have hu : (s.endedAt r n).returnMarked r n = m.commit r n work := by
      rw [hdecided, State.decideReturn, markedAt_buffer, hempty, Option.isSome_none, Bool.and_false,
        if_neg Bool.false_ne_true]
    have hsettled := settled_from (settled_commit m r n work htrue) (markedAt_buffer s r n ident)
      (markedAt_account s r n ident) (markedAt_report s r n ident)
    rw [settled_markedAt] at hsettled
    rw [htrue] at htold
    refine ⟨_, hu ▸ hnext, hcommits, Settled.congr hsettled (fun x => ?_) (fun j => ?_) fun k => ?_, ?_⟩
    · rw [feedWork_buffer, kickRack_buffer]
    · rw [feedWork_account, kickRack_account]
    · rw [feedWork_report, kickRack_report]
    · exact (htold.kicked r).congr fun p => rfl
  case held =>
    have htrue : work.closes = true := hcloses.trans (decide_eq_true hlast)
    have hsome : (s.buffer r).isSome = true := Option.isSome_iff_ne_none.mpr hfull
    have hu : (s.endedAt r n).returnMarked r n = m.holdReturn r n work := by
      rw [hdecided, State.decideReturn, markedAt_buffer, hsome, if_pos (Bool.and_eq_true_iff.mpr ⟨htrue, rfl⟩)]
    have hdocked := ((docked_markedAt s r n ident).setSlot { work.slot with state := .held, miss := false }).same
      (u := m.holdReturn r n work) (fun x => notify_rack _ _ _ x) (notify_profile _ _ _)
    rw [show (v.state.probed && SlotState.held.probed) = v.state.probed from Bool.and_true _] at hdocked
    have hslot : { work.slot with state := SlotState.held, miss := false } =
        { v with state := .held, ident := some { ident with mark := .stock }, miss := false, retry := false } := by
      rw [show work.slot = _ from markedAt_slot s r n ident]
    rw [hslot] at hdocked
    refine ⟨_, hu ▸ hnext, hdocks hdocked ?_, ?_, ?_, ?_, fun x => ?_, ?_, ?_⟩
    · exact (((onlyRacks_markedAt s r n ident).trans (onlyRacks_setSlot _ r n _)).trans
        (onlyRacks_notifyRack _ r _)).hires
    · simp [State.holdReturn, m, State.markedAt]
    · simp [State.holdReturn, m, State.markedAt]
    · simp [State.holdReturn, m, State.markedAt]
    · simp [State.holdReturn, m]
    · simp [State.holdReturn, m]
    · exact (((told_markedAt s r n ident).of_same_ports (setSlot_port _ r n _)).notifyRack r _).kicked r

end Sys2Proof.Machine
end

section
/-!
PROOFS. LossIsCharged: LOSS_DECLARE (R159, R160).
-/
namespace Sys2Proof.Machine

variable (s : State)

-- The checks (R159)

theorem lossRack_eq (p : Port) (issuing : Rack) : s.lossRack p issuing = settlingRack s p issuing := by cases p <;> rfl

theorem deskUnfitted_iff (p : Port) :
    s.deskUnfitted p = true ↔ ∃ r ∈ [Rack.a, .b], p = deskOf r ∧ s.rackFitted r = false := by
  cases p with
  | ops => simp [State.deskUnfitted, ownRack, deskOf]
  | deskA => simp [State.deskUnfitted, ownRack, deskOf]
  | deskB => simp [State.deskUnfitted, ownRack, deskOf]

/-- LOSS_DECLARE of a serial makes the checks of R159 one after another. -/
theorem doLossDeclare_eq (p : Port) (a b c : Byte) :
    doLossDeclare p [a, b, c] s =
      if badSerial (num3 a b c) = true then refuse s .badArg
      else if s.deskUnfitted p = true then refuse s .wrongState
      else
        (s.bySerial (num3 a b c)).elim (refuse s .noRecord) fun e =>
          match e.2.state with
          | .issued ref l issuing issued =>
            if s.returnInHand (num3 a b c) = true then refuse s .wrongState
            else
              (s.openAccount ref).elim (refuse s .wrongState) fun o =>
                if o.entries.map (·.receiver) = [e.1] && (s.buffer (settlingRack s p issuing)).isSome then
                  refuse s .settleBusy
                else s.lose p e.1 e.2 ref l issuing issued o
          | .stock | .pending _ _ _ | .lost _ _ | .service => refuse s .wrongState := by
  unfold doLossDeclare
  dsimp only
  rw [serialOk_iff, Bool.not_not]
  rcases bySerial_eq_none_or s (num3 a b c) with hnone | ⟨i, w, hsome⟩
  · rw [hnone]
    rfl
  · rw [hsome]
    cases hstate : w.state with
    | issued ref l issuing issued =>
      cases hopen : s.openAccount ref <;> simp only [hstate, hopen, lossRack_eq, Option.elim_some, Option.elim_none]
    | stock | pending | lost | service => simp only [hstate, Option.elim_some]

/-- The first check that fails decides the refusal (R159). -/
theorem doLossDeclare_refused {p : Port} {a b c : Byte} {x : Result}
    (h : firstFailure (lossDeclareChecks s p (num3 a b c)) = some x) :
    doLossDeclare p [a, b, c] s = refuse s x := by
  simp only [lossDeclareChecks, firstFailure_cons, firstFailure_nil] at h
  rw [doLossDeclare_eq]
  refine refuse_of_check s Iff.rfl h fun h => ?_
  refine refuse_of_check s (by rw [deskUnfitted_iff, decide_eq_true_eq]) h fun h => ?_
  rcases bySerial_eq_none_or s (num3 a b c) with hnone | ⟨i, w, hsome⟩
  · rw [hnone] at h ⊢
    rw [← Option.some.inj h]
    rfl
  · rw [hsome] at h ⊢
    simp only [reduceCtorEq, decide_false, Bool.false_eq_true, if_false, Option.any_some, Option.elim_some] at h ⊢
    cases hstate : w.state with
    | issued ref l issuing issued =>
      simp only [hstate] at h ⊢
      by_cases hhand : s.returnInHand (num3 a b c) = true
      · have hx : x = .wrongState := by simpa [hhand] using h.symm
        rw [if_pos hhand, hx]
      · rw [if_neg hhand]
        cases hopen : s.openAccount ref with
        | none =>
          have hx : x = .wrongState := by simpa [(openAccount_eq_none_iff s ref).mp hopen] using h.symm
          rw [hx]
          rfl
        | some o =>
          have hnot : ¬ notOpen s ref = true := (openAccount_eq_none_iff s _).not.mp (by simp [hopen])
          rw [if_neg (by simp [hhand, hnot]), account_of_openAccount s hopen] at h
          exact refuse_of_check s (by simp [Option.isSome_iff_ne_none]) h fun h => nomatch h
    | stock | pending | lost | service =>
      simp only [hstate, decide_true, if_true] at h ⊢
      rw [← Option.some.inj h]

-- The charge (R160)

/-- The charge of the time out and the loss charge, each clamped (R160, steps 1 and 2). -/
theorem lossCharge_eq (v : Tariff) (issued : Stamp) :
    let exact := chargeBeforeCeiling v issued.minute issued.day s.minute s.day
    let hire := min 4294967295 exact
    lossCharge v issued s.now =
      ⟨min 4294967295 (hire + v.lossCharge),
        decide (4294967295 < exact) || decide (4294967295 < hire + v.lossCharge)⟩ := by
  intro exact hire
  rw [lossCharge, charge, exactCharge_eq]
  rfl

/-- The account after the charge of a loss (R160). -/
def OpenAccount.lost (o : OpenAccount) (s : State) (issued : Stamp) (i : Nat) : OpenAccount :=
  { o.charged (lossCharge o.snapshot issued s.now) i with losses := satAdd Config.top32 o.losses 1 }

/-- The records of a loss are written, before the settlement that it may bring (R160). -/
def State.lossTaken (s : State) (i : Nat) (w : Receiver) (ref : AccountRef) (l : Nat) (issuing : Rack)
    (after : OpenAccount) : State :=
  ((s.setOpen ref after).setReceiver i (some { w with state := .lost ref issuing })).dropListener l

/-- A loss that leaves its account with entries (R160). -/
theorem lose_open {p : Port} {i l : Nat} {w : Receiver} {ref : AccountRef} {issuing : Rack} {issued : Stamp}
    {o : OpenAccount} (h : (o.lost s issued i).entries ≠ []) :
    s.lose p i w ref l issuing issued o =
      (s.lossTaken i w ref l issuing (o.lost s issued i),
        lossReply ref (lossCharge o.snapshot issued s.now).value none) :=
  if_neg fun he => h (List.isEmpty_iff.mp he)

/-- A loss that takes the last entry settles the account (R160). -/
theorem lose_closes {p : Port} {i l : Nat} {w : Receiver} {ref : AccountRef} {issuing : Rack} {issued : Stamp}
    {o : OpenAccount} (h : (o.lost s issued i).entries = []) :
    s.lose p i w ref l issuing issued o =
      ((s.lossTaken i w ref l issuing (o.lost s issued i)).settle ref (o.lost s issued i) (settlingRack s p issuing),
        lossReply ref (lossCharge o.snapshot issued s.now).value
          (some (settled s ref (o.lost s issued i) (settlingRack s p issuing)))) := by
  rw [← lossRack_eq, ← settlementOf_now]
  exact if_pos (List.isEmpty_iff.mpr h)

theorem lost_entries (o : OpenAccount) (issued : Stamp) (i : Nat) :
    (o.lost s issued i).entries = o.entries.filter fun e => e.receiver ≠ i := rfl

theorem lost_entries_of_only {o : OpenAccount} {i : Nat} (issued : Stamp) (h : o.entries.map (·.receiver) = [i]) :
    (o.lost s issued i).entries = [] := by
  rw [lost_entries, List.filter_eq_nil_iff]
  intro e he
  have hmem : e.receiver ∈ o.entries.map (·.receiver) := List.mem_map_of_mem he
  rw [h, List.mem_singleton] at hmem
  simp [hmem]

section
variable (i : Nat) (w : Receiver) (ref : AccountRef) (l : Nat) (issuing : Rack) (after : OpenAccount)

theorem lossTaken_receiver (j : Nat) :
    (s.lossTaken i w ref l issuing after).receiver j =
      if j = i then some { w with state := .lost ref issuing } else s.receiver j := by
  simp [State.lossTaken, receiver_setReceiver]

theorem lossTaken_account (j : Nat) :
    (s.lossTaken i w ref l issuing after).account j =
      if j = ref.index then { s.account ref.index with account := some after } else s.account j := by
  simp [State.lossTaken, account_setAccount]

theorem lossTaken_language (k : Nat) :
    (s.lossTaken i w ref l issuing after).language k =
      if k = l then { s.language l with listeners := (s.language l).listeners - 1 } else s.language k := by
  simp [State.lossTaken, language_setLanguage]

theorem told_lossTaken :
    Told s (s.lossTaken i w ref l issuing after)
      (accountRecords s ref.index { s.account ref.index with account := some after } ++ listenerRecords s l) toNone := by
  have hcharged : Told s (s.setOpen ref after) _ toNone := told_setAccount s ref.index _
  have hlost := hcharged.of_same_ports (setReceiver_port _ i (some { w with state := .lost ref issuing }))
  have hlistener := told_dropListener ((s.setOpen ref after).setReceiver i (some { w with state := .lost ref issuing })) l
  rw [listenerRecords_congr (s := s) (by simp)] at hlistener
  exact hlost.trans_silent hlistener

/-- The settlement that a closing loss makes (R160, R163). -/
theorem settled_lossTaken (r : Rack) :
    Settled s ((s.lossTaken i w ref l issuing after).settle ref after r) ref r (settled s ref after r) := by
  obtain ⟨hbuffer, hbuffers, haccount, haccounts, hreports⟩ :=
    settled_settle (s.lossTaken i w ref l issuing after) ref after r
  have hsettled : settled (s.lossTaken i w ref l issuing after) ref after r = settled s ref after r := by
    simp [settled, State.lossTaken]
  rw [hsettled] at hbuffer hreports
  refine ⟨hbuffer, fun x hx => ?_, ?_, fun j hj => ?_, fun k => ?_⟩
  · rw [hbuffers x hx]
    simp [State.lossTaken]
  · rw [haccount, lossTaken_account, if_pos rfl]
  · rw [haccounts j hj, lossTaken_account, if_neg hj]
  · rw [hreports k]
    simp [State.lossTaken]

end

/-- Settles O47: LOSS_DECLARE makes its checks in order; the loss is charged, and settles an account it empties. -/
theorem lossIsCharged : Obligations.LossIsCharged := by
  unfold Obligations.LossIsCharged
  refine ⟨fun s p tag a b c ht => ?refused, ?charged⟩
  case refused =>
    refine refusedBy_own (name := .lossDeclare) (f := doLossDeclare p [a, b, c]) rfl ht (by cases p <;> rfl) rfl
      fun x hx => doLossDeclare_refused s ?_
    rw [num3_eq]
    exact hx
  case charged =>
    intro s p tag a b c i l w ref issuing r issued o serial ht h1 htop hserial hstate hhand haccount hfit hr exact hire
      amount after lost records
    have hcharge := lossCharge_eq s o.snapshot issued
    have hafter : o.lost s issued i = after := by
      rw [OpenAccount.lost, hcharge]
      rfl
    have hok : badSerial (num3 a b c) = false := by
      rw [num3_eq]
      exact decide_eq_false (by omega)
    have hdesk : ¬ s.deskUnfitted p = true := by
      rw [deskUnfitted_iff]
      rintro ⟨x, _, hx, hunfit⟩
      rw [hfit x hx] at hunfit
      exact nomatch hunfit
    have hdo : ¬ (o.entries.map (·.receiver) = [i] ∧ s.buffer r ≠ none) →
        doLossDeclare p [a, b, c] s = s.lose p i w ref l issuing issued o := by
      intro hfree
      rw [doLossDeclare_eq, hok, if_neg Bool.false_ne_true, if_neg hdesk, num3_eq,
        show s.bySerial (a.toNat * 65536 + b.toNat * 256 + c.toNat) = _ from hserial]
      simp only [Option.elim_some, hstate]
      rw [show s.returnInHand (a.toNat * 65536 + b.toNat * 256 + c.toNat) = false from hhand,
        if_neg Bool.false_ne_true, openAccount_of_account s haccount, Option.elim_some, ← hr]
      exact if_neg (by simpa [Option.isSome_iff_ne_none] using hfree)
    have htaken := told_lossTaken s i w ref l issuing after
    rw [haccount] at htaken
    refine ⟨fun hleft => ?left, fun honly hempty => ?settles⟩
    case left =>
      have hown := (hdo fun h => hleft (hafter ▸ lost_entries_of_only s issued h.1)).trans
        (lose_open s (by rw [hafter]; exact hleft))
      rw [hafter, hcharge] at hown
      refine ⟨_, client_next (name := .lossDeclare) ht (by cases p <;> rfl) rfl hown,
        ⟨?_, fun j hj => ?_, ?_, fun k hk => ?_, ?_⟩, ?_, fun j hj => ?_, ?_, ?_, ?_, ?_⟩
      · simp [lossTaken_receiver]
      · simp [lossTaken_receiver, hj]
      · simp [lossTaken_language]
      · simp [lossTaken_language, hk]
      · refine (after_frame _ _ _ _ _).trans ?_
        ext <;> simp [State.lossTaken]
      · simp [lossTaken_account, haccount]
      · simp [lossTaken_account, hj]
      · simp [State.lossTaken]
      · simp [State.lossTaken]
      · simp [State.lossTaken]
      · exact answered_after htaken
    case settles =>
      have hown := (hdo fun h => h.2 hempty).trans (lose_closes s (lost_entries_of_only s issued honly))
      rw [hafter, hcharge, ← hr] at hown
      have hopen : ((s.lossTaken i w ref l issuing after).account ref.index).account = some after := by
        simp [lossTaken_account]
      have hsettle := told_settle (s.lossTaken i w ref l issuing after) after r hopen
      refine ⟨_, client_next (name := .lossDeclare) ht (by cases p <;> rfl) rfl hown,
        ⟨?_, fun j hj => ?_, ?_, fun k hk => ?_, ?_⟩,
        Settled.congr (settled_lossTaken s i w ref l issuing after r) (by simp) (by simp) (by simp), ?_⟩
      · simp [lossTaken_receiver]
      · simp [lossTaken_receiver, hj]
      · simp [lossTaken_language]
      · simp [lossTaken_language, hk]
      · refine (after_frame _ _ _ _ _).trans ?_
        ext <;> simp [State.lossTaken, State.settle]
      · exact answered_after ((htaken.trans hsettle).congr fun p => rfl)

end Sys2Proof.Machine
end

section
/-!
PROOFS. What every part of BOOTH_CONFIG leaves alone (R30): of a booth the link record, the abilities and the counters of
its seats, of a language all but its owner, of a channel all but its state.
-/
namespace Sys2Proof.Machine

variable {s t u : State}

theorem Booth.sameButRelay_trans {v w x : Booth} (h : v.SameButRelay w) (h' : w.SameButRelay x) : v.SameButRelay x := by
  unfold Booth.SameButRelay at *
  rw [h] at h'
  exact h'

/-- The counters of a seat (R28). -/
def Seat.SameCounters (v w : Seat) : Prop := w.turn = v.turn ∧ w.liveMinutes = v.liveMinutes

/-- From `s` to `t` a part of a configuration of booth `b` was carried out, after the configuration itself is written. -/
structure Aligned (s t : State) (b : Nat) : Prop where
  config   : (t.booth b).config = (s.booth b).config
  selected : (t.booth b).selected = (s.booth b).selected
  link     : (t.booth b).link = (s.booth b).link
  granted  : (t.booth b).granted = (s.booth b).granted
  flash    : (t.booth b).flash = (s.booth b).flash
  seats    : ∀ n, ((s.booth b).seat n).SameCounters ((t.booth b).seat n)
  others   : ∀ x, x ≠ b → (s.booth x).SameButRelay (t.booth x)
  language : ∀ l, t.language l = { s.language l with owner := (t.language l).owner }
  channel  : ∀ c, t.channel c = { s.channel c with state := (t.channel c).state }
  told     : ∃ rs ns, Told s t rs (toOps ns)
  hall     : s.OnlyHall t

variable {b : Nat}

theorem Aligned.refl (s : State) (b : Nat) : Aligned s s b where
  config := rfl
  selected := rfl
  link := rfl
  granted := rfl
  flash := rfl
  seats _ := ⟨rfl, rfl⟩
  others _ _ := rfl
  language _ := rfl
  channel _ := rfl
  told := ⟨[], [], (Told.refl s).silent⟩
  hall := rfl

theorem Aligned.trans (h : Aligned s t b) (h' : Aligned t u b) : Aligned s u b where
  config := h'.config.trans h.config
  selected := h'.selected.trans h.selected
  link := h'.link.trans h.link
  granted := h'.granted.trans h.granted
  flash := h'.flash.trans h.flash
  seats n := ⟨(h'.seats n).1.trans (h.seats n).1, (h'.seats n).2.trans (h.seats n).2⟩
  others x hx := Booth.sameButRelay_trans (h.others x hx) (h'.others x hx)
  language l := by rw [h'.language l, h.language l]
  channel c := by rw [h'.channel c, h.channel c]
  told := by
    obtain ⟨rs, ns, htold⟩ := h.told
    obtain ⟨rs', ns', htold'⟩ := h'.told
    exact ⟨_, _, htold.trans_ops htold'⟩
  hall := h.hall.trans h'.hall

theorem Aligned.foldl {f : State → Nat → State} (h : Aligned s t b) (l : List Nat) (hf : ∀ u x, Aligned u (f u x) b) :
    Aligned s (l.foldl f t) b := by
  induction l generalizing t with
  | nil => exact h
  | cons x rest ih => exact ih (h.trans (hf t x))

-- The writes that the parts make

theorem told_setBooth_exists (s : State) (x : Nat) (v : Booth) : ∃ rs ns, Told s (s.setBooth x v) rs (toOps ns) :=
  ⟨_, [], (told_setBooth s x v).silent⟩

/-- A write of the fields that the relay map has of a booth. -/
theorem aligned_relay (s : State) (b z : Nat) {v : Booth} (hv : (s.booth z).SameButRelay v) :
    Aligned s (s.setBooth z v) b := by
  have hsame : ∀ x, (s.booth x).SameButRelay ((s.setBooth z v).booth x) := by
    intro x
    rw [booth_setBooth]
    split
    next hx => rw [hx]; exact hv
    next => rfl
  have hb := hsame b
  unfold Booth.SameButRelay at hb
  refine ⟨?_, ?_, ?_, ?_, ?_, fun n => ?_, fun x _ => hsame x, fun l => ?_, fun c => ?_, told_setBooth_exists s z v,
    (onlyBooths_setBooth s z v).hall⟩
  iterate 5 rw [hb]
  · rw [hb]
    exact ⟨rfl, rfl⟩
  · rw [setBooth_language]
  · rw [setBooth_channel]

/-- A write of the seats and the handover state of the booth itself. -/
theorem aligned_seats (s : State) (b : Nat) {seats : Tab Seat} (handover : Option Request)
    (hseats : ∀ n, ((s.booth b).seat n).SameCounters (tabGet Seat.initial seats n)) :
    Aligned s (s.setBooth b { s.booth b with seats := seats, handover := handover }) b where
  config := by rw [booth_setBooth_same]
  selected := by rw [booth_setBooth_same]
  link := by rw [booth_setBooth_same]
  granted := by rw [booth_setBooth_same]
  flash := by rw [booth_setBooth_same]
  seats n := by rw [booth_setBooth_same]; exact hseats n
  others x hx := by rw [booth_setBooth, if_neg hx]; rfl
  language l := by rw [setBooth_language]
  channel c := by rw [setBooth_channel]
  told := told_setBooth_exists s b _
  hall := (onlyBooths_setBooth s b _).hall

theorem aligned_notify (s : State) (b : Nat) (n : Notice) : Aligned s (s.notify .ops n) b where
  config := by rw [notify_booth]
  selected := by rw [notify_booth]
  link := by rw [notify_booth]
  granted := by rw [notify_booth]
  flash := by rw [notify_booth]
  seats k := by rw [notify_booth]; exact ⟨rfl, rfl⟩
  others x _ := by rw [notify_booth]; rfl
  language l := by rw [notify_language]
  channel c := by rw [notify_channel]
  told := ⟨_, _, told_notifyOps s n⟩
  hall := (onlyBooths_notify s .ops n).hall

theorem aligned_setOwner (s : State) (b l : Nat) (o : Option Nat) : Aligned s (s.setOwner l o) b where
  config := by rw [setOwner_booth]
  selected := by rw [setOwner_booth]
  link := by rw [setOwner_booth]
  granted := by rw [setOwner_booth]
  flash := by rw [setOwner_booth]
  seats k := by rw [setOwner_booth]; exact ⟨rfl, rfl⟩
  others x _ := by rw [setOwner_booth]; rfl
  language k := by
    rw [language_setOwner]
    split
    next hk => rw [hk]
    next => rfl
  channel c := by
    rw [channel_setOwner, State.ownerChannel]
    split <;> rfl
  told := ⟨_, _, told_setOwner s l o⟩
  hall := (onlyBindings_setOwner s l o).hall

theorem aligned_release (s : State) (b : Nat) (x : Option Nat) : Aligned s (s.release b x) b := by
  unfold State.release
  split
  · exact .refl s b
  · split
    · exact aligned_setOwner s b _ _
    · exact .refl s b

theorem aligned_dropTaker (s : State) (b source : Nat) (cause : Cause) (c : Nat) :
    Aligned s (s.dropTaker source cause c) b := by
  refine ((aligned_relay s b c ?_).trans (aligned_relay _ b source ?_)).trans (aligned_notify _ b _)
  · rfl
  · rfl

theorem aligned_followOrDropOne (s : State) (b : Nat) (y : Option Nat) (c : Nat) :
    Aligned s (s.followOrDropOne b y c) b := by
  rcases followOrDropOne_cases s b c y with ⟨-, h, -⟩ | ⟨-, h⟩
  · rw [h]
    exact aligned_dropTaker s b b _ c
  · rw [h]
    exact aligned_notify s b _

/-- A seat written with its counters as they were. -/
theorem sameCounters_setSeat (v : Booth) {n : Nat} {w : Seat} (hw : (v.seat n).SameCounters w) (k : Nat) :
    (v.seat k).SameCounters ((v.setSeat n w).seat k) := by
  rw [seat_setSeat]
  split
  next hk => rw [hk]; exact hw
  next => exact ⟨rfl, rfl⟩

theorem aligned_goOffAir (s : State) (b n : Nat) (x : Option Nat) : Aligned s (s.goOffAir b n x) b :=
  (aligned_seats s b none (sameCounters_setSeat (s.booth b) (w := ((s.booth b).seat n).offAir) ⟨rfl, rfl⟩)).trans
    (aligned_release _ b x)

theorem aligned_overdueTest (s : State) (b n : Nat) : Aligned s (s.overdueTest b n) b := by
  unfold State.overdueTest
  dsimp only
  split
  · exact (aligned_seats s b _ (sameCounters_setSeat (s.booth b)
      (w := { (s.booth b).seat n with overdue := true }) ⟨rfl, rfl⟩)).trans (aligned_notify _ b _)
  · exact .refl s b

-- The parts (R30)

theorem aligned_configLanguage (s : State) (b : Nat) (x : Option Nat) : Aligned s (s.configLanguage b x) b := by
  unfold State.configLanguage
  dsimp only
  split
  next => exact .refl s b
  next n _ =>
    split
    next => exact aligned_goOffAir s b n x
    next y _ =>
      unfold State.switchTo
      split_ifs
      · exact .refl s b
      · cases (s.language y).owner with
        | none => exact (aligned_release s b x).trans (aligned_setOwner _ b y _)
        | some o =>
          by_cases ho : o = b
          · simp only [ho, if_true]
            exact aligned_release s b x
          · simp only [ho, if_false]
            exact aligned_goOffAir s b n x

theorem aligned_configRelay (s : State) (b : Nat) : Aligned s (s.configRelay b) b := by
  unfold State.configRelay
  dsimp only
  split
  · exact .refl s b
  · split
    · exact aligned_dropTaker s b _ _ b
    · split
      · exact .refl s b
      · exact aligned_dropTaker s b _ _ b

theorem aligned_configRelays (s : State) (b : Nat) (changed : Bool) (y : Option Nat) :
    Aligned s (s.configRelays b changed y) b := by
  refine Aligned.foldl (.refl s b) _ fun u x => ?_
  split
  · exact aligned_configRelay u b
  · exact aligned_followOrDropOne u b y x

/-- The configuration written whole, with the selected output that it keeps (R30, step 1). -/
def State.configWritten (s : State) (b : Nat) (c : BoothConfig) : State :=
  s.setBooth b { s.booth b with config := c, selected := (s.booth b).keptOutput c }

/-- All that follows the write of a configuration leaves it as it was written. -/
theorem aligned_configure (s : State) (b : Nat) (c : BoothConfig) :
    Aligned (s.configWritten b c) (s.configure b c) b := by
  have hswitched : Aligned (s.configWritten b c)
      (if (s.booth b).language = ((s.configWritten b c).booth b).language then s.configWritten b c
        else (s.configWritten b c).configLanguage b (s.booth b).language) b := by
    split
    · exact .refl _ b
    · exact aligned_configLanguage _ b _
  have hrelayed := hswitched.trans (aligned_configRelays _ b
    (decide ((s.booth b).language ≠ ((s.configWritten b c).booth b).language)) ((s.configWritten b c).booth b).language)
  unfold State.configure
  dsimp only
  split
  next => exact hrelayed
  next n _ =>
    split
    next => exact hrelayed
    next => exact hrelayed.trans (aligned_overdueTest _ b n)

end Sys2Proof.Machine
end

section
/-!
PROOFS. The relay part of BOOTH_CONFIG (R30, steps 3 and 4): the takers are visited in rising order, the booth's own relay in
its place among them.
-/
namespace Sys2Proof.Machine

variable {s : State}

/-- A number in its place in a rising list. -/
theorem setAdd_split {b : Nat} {l : List Nat} (hl : l.Pairwise (· < ·)) (hb : b ∉ l) :
    setAdd b l = l.filter (· < b) ++ b :: l.filter (b < ·) := by
  induction l with
  | nil => rfl
  | cons j rest ih =>
    obtain ⟨hj, hrest⟩ := List.pairwise_cons.mp hl
    obtain ⟨hne, hnot⟩ : b ≠ j ∧ b ∉ rest := by simpa using hb
    unfold setAdd
    by_cases hlt : b < j
    · have hnone : (j :: rest).filter (· < b) = [] := by
        refine List.filter_eq_nil_iff.mpr fun z hz => ?_
        rcases List.mem_cons.mp hz with rfl | hz
        · simp; omega
        · have := hj z hz
          simp; omega
      have hall : (j :: rest).filter (b < ·) = j :: rest := by
        refine List.filter_eq_self.mpr fun z hz => ?_
        rcases List.mem_cons.mp hz with rfl | hz
        · simpa using hlt
        · have := hj z hz
          simp; omega
      rw [if_pos hlt, hnone, hall]
      rfl
    · have hjb : j < b := by omega
      rw [if_neg hlt, if_neg hne, ih hrest hnot]
      simp [hjb, hlt]

/-- The takers visited in rising order, the booth itself in its place among them. -/
theorem foldl_setAdd {α : Type} {b : Nat} {l : List Nat} (hl : l.Pairwise (· < ·)) (hb : b ∉ l) (f : α → Nat → α)
    (g : α → α) (a : α) :
    (setAdd b l).foldl (fun a z => if z = b then g a else f a z) a =
      (l.filter (b < ·)).foldl f (g ((l.filter (· < b)).foldl f a)) := by
  have hskip : ∀ (p : Nat → Bool) (a : α), (l.filter p).foldl (fun a z => if z = b then g a else f a z) a =
      (l.filter p).foldl f a := by
    intro p a
    refine List.foldl_ext _ _ a fun a z hz => if_neg ?_
    rintro rfl
    exact hb (List.mem_filter.mp hz).1
  rw [setAdd_split hl hb, List.foldl_append, List.foldl_cons, if_pos rfl, hskip, hskip]

theorem setDel_of_not_mem {b : Nat} {l : List Nat} (h : b ∉ l) : setDel b l = l :=
  List.filter_eq_self.mpr fun _ hz => decide_eq_true fun e => h (e ▸ hz)

-- The booth's own relay (R30, step 4)

/-- The source that booth `b` relays and does not understand (R81). -/
def State.ownDrop (s : State) (b : Nat) : Option Nat :=
  match (s.booth b).input with
  | .floor => none
  | .relay a => if refuses (s.booth a).language (s.booth b).config then some a else none

theorem configRelay_eq (s : State) (b : Nat) :
    s.configRelay b = (s.ownDrop b).elim s fun a => s.dropTaker a .notUnderstood b := by
  unfold State.configRelay State.ownDrop refuses
  dsimp only
  cases hinput : (s.booth b).input with
  | floor => rfl
  | relay a =>
    cases hlanguage : (s.booth a).language with
    | none => simp [hlanguage]
    | some l => by_cases haccepts : l ∈ (s.booth b).config.accepted <;> simp [hlanguage, haccepts]

/-- The records of the source whose relay is dropped (R192). -/
def State.ownDropRecords (s : State) (b : Nat) (own : Option Nat) : List RecordName :=
  match own with
  | some a => s.takerRecords a (setDel b (s.booth a).takers)
  | none => []

/-- The notice of the booth's own relay dropped (R81). -/
def ownDropNotices (b : Nat) (own : Option Nat) : List Notice :=
  match own with
  | some a => [.relayDropped b a .notUnderstood]
  | none => []

theorem ownDrop_input {b a : Nat} (h : s.ownDrop b = some a) : (s.booth b).input = .relay a := by
  unfold State.ownDrop at h
  split at h
  next => exact nomatch h
  next source hinput =>
    split at h
    · rw [hinput, Option.some.inj h]
    · exact nomatch h

/-- The booths after the booth's own relay is dropped, or not (R78, R81). -/
theorem booth_configRelay (s : State) (b z : Nat) :
    (s.configRelay b).booth z =
      { s.booth z with
        input := if z = b ∧ (s.ownDrop b).isSome then .floor else (s.booth z).input
        stack := if z = b ∧ (s.ownDrop b).isSome then (s.booth z).stack.push (s.booth z).input else (s.booth z).stack
        takers := if s.ownDrop b = some z then setDel b (s.booth z).takers else (s.booth z).takers } := by
  rw [configRelay_eq]
  cases hown : s.ownDrop b with
  | none => simp
  | some a =>
    have hinput := ownDrop_input hown
    rw [Option.elim_some, booth_dropTaker]
    by_cases hb : z = b
    · subst hb
      simp [hinput, eq_comm]
    · simp [hb, eq_comm]

theorem told_configRelay (s : State) (b : Nat) :
    ToldBeside s (s.configRelay b) b (s.ownDropRecords b (s.ownDrop b)) (ownDropNotices b (s.ownDrop b)) := by
  rw [configRelay_eq]
  cases hown : s.ownDrop b with
  | none => exact (Told.refl s).silent.beside
  | some a =>
    refine ⟨if (s.booth b).input ≠ .floor then [.booth b] else [], fun r hr => ?_,
      (told_dropTaker s a .notUnderstood b).same_records fun r => ?_⟩
    · split at hr
      · exact List.mem_singleton.mp hr
      · simp at hr
    · simp only [State.ownDropRecords, List.mem_append]
      exact Or.comm

theorem onlyBooths_configRelay (s : State) (b : Nat) : s.OnlyBooths (s.configRelay b) := by
  rw [configRelay_eq]
  cases s.ownDrop b with
  | none => exact .refl s
  | some a => exact onlyBooths_dropTaker s a _ b

-- The takers, and the booth among them (R30, steps 3 and 4)

/-- What the visits of the takers and of the booth's own relay bring about. -/
structure Relayed (s t : State) (b : Nat) (y : Option Nat) (visited dropped : List Nat) (own : Option Nat) : Prop where
  booth  : t.booth b =
    { s.booth b with
      input := if own.isSome then .floor else (s.booth b).input
      stack := if own.isSome then (s.booth b).stack.push (s.booth b).input else (s.booth b).stack
      takers := (s.booth b).takers.filter fun z => z ∉ dropped }
  others : ∀ z, z ≠ b → t.booth z =
    { s.booth z with
      input := if z ∈ dropped then .floor else (s.booth z).input
      stack := if z ∈ dropped then (s.booth z).stack.push (.relay b) else (s.booth z).stack
      takers := if own = some z then setDel b (s.booth z).takers else (s.booth z).takers }
  told   : ToldBeside s t b (s.droppedRecords dropped ++ s.ownDropRecords b own)
    ((visited.filter (· < b)).map (fun z => visitNotice b y (s.booth z).config z) ++ ownDropNotices b own ++
      (visited.filter (b < ·)).map fun z => visitNotice b y (s.booth z).config z)
  frame  : s.OnlyBooths t

theorem ToldBeside.same_records {t : State} {b : Nat} {rs rs' : List RecordName} {ns : List Notice}
    (h : ToldBeside s t b rs ns) (hr : ∀ r, r ∈ rs ↔ r ∈ rs') : ToldBeside s t b rs' ns := by
  obtain ⟨own, hown, htold⟩ := h
  exact ⟨own, hown, htold.same_records fun r => by simp only [List.mem_append, hr]⟩

theorem mem_droppedRecords {l : List Nat} {r : RecordName} :
    r ∈ s.droppedRecords l ↔ ∃ z ∈ l, (s.booth z).input ≠ .floor ∧ .booth z = r := by
  simp [State.droppedRecords, and_assoc]

/-- The takers in rising order, with the booth's own relay in its place (R30, R79 to R81, R85). -/
theorem relayed_configRelays {b : Nat} {y : Option Nat} (changed : Bool)
    (hrise : (s.booth b).takers.Pairwise (· < ·)) (hb : b ∉ (s.booth b).takers) :
    let visited := if changed then (s.booth b).takers else []
    Relayed s (s.configRelays b changed y) b y visited
      (visited.filter fun z => refuses y (s.booth z).config) (s.ownDrop b) := by
  intro visited
  have hvisited : visited.Pairwise (· < ·) ∧ b ∉ visited := by
    simp only [visited]
    split
    · exact ⟨hrise, hb⟩
    · exact ⟨.nil, by simp⟩
  obtain ⟨hpair, hnot⟩ := hvisited
  have hnodup : ∀ p : Nat → Bool, (visited.filter p).Nodup := fun p => (hpair.imp fun h => Nat.ne_of_lt h).filter p
  have hvisits := visitsTaker_followOrDropOne b y
  -- the takers below the booth
  obtain ⟨hlow, htoldLow, hframeLow⟩ := hvisits.foldl (hnodup (· < b)) s
  generalize hu : (visited.filter (· < b)).foldl (fun s c => s.followOrDropOne b y c) s = u at hlow htoldLow hframeLow
  have hbelow : ∀ z ∈ (visited.filter (· < b)).filter (fun z => refuses y (s.booth z).config), z < b := fun z hz => by
    simpa using (List.mem_filter.mp (List.mem_filter.mp hz).1).2
  have hsame : u.booth b = { s.booth b with takers := (u.booth b).takers } := by
    have hout : b ∉ (visited.filter (· < b)).filter fun z => refuses y (s.booth z).config := fun h =>
      Nat.lt_irrefl b (hbelow b h)
    rw [hlow b, if_neg hout, if_neg hout]
  have hlanguage : ∀ z, (u.booth z).language = (s.booth z).language := fun z => by rw [hlow z]; rfl
  have hown : u.ownDrop b = s.ownDrop b := by
    have hinput : (u.booth b).input = (s.booth b).input := by rw [hsame]
    have hconfig : (u.booth b).config = (s.booth b).config := by rw [hsame]
    simp only [State.ownDrop, hinput, hlanguage, hconfig]
  have htakers : (u.booth b).takers = (s.booth b).takers.filter fun z =>
      z ∉ (visited.filter (· < b)).filter fun z => refuses y (s.booth z).config := by
    rw [hlow b]
    exact if_pos rfl
  -- the booth's own relay
  have hself := booth_configRelay u b
  have htoldSelf := told_configRelay u b
  -- the takers above the booth
  obtain ⟨hhigh, htoldHigh, hframeHigh⟩ := hvisits.foldl (hnodup (b < ·)) (u.configRelay b)
  have hconfig : ∀ z, ((u.configRelay b).booth z).config = (s.booth z).config := fun z => by rw [hself, hlow z]
  have habove : ∀ z ∈ (visited.filter (b < ·)).filter (fun z => refuses y (s.booth z).config), b < z := fun z hz => by
    simpa using (List.mem_filter.mp (List.mem_filter.mp hz).1).2
  have hfold : s.configRelays b changed y =
      (visited.filter (b < ·)).foldl (fun s c => s.followOrDropOne b y c) (u.configRelay b) := by
    rw [← hu]
    exact foldl_setAdd hpair hnot (fun s c => State.followOrDropOne s b y c) (fun s => State.configRelay s b) s
  simp only [hconfig] at hhigh htoldHigh
  rw [hown] at hself htoldSelf
  rw [hfold]
  generalize hlowList : (visited.filter (· < b)).filter (fun z => refuses y (s.booth z).config) = low at *
  generalize hhighList : (visited.filter (b < ·)).filter (fun z => refuses y (s.booth z).config) = high at *
  have hdropped : ∀ z, z ∈ visited.filter (fun z => refuses y (s.booth z).config) ↔ z ∈ low ∨ z ∈ high := by
    intro z
    simp only [← hlowList, ← hhighList, List.mem_filter, decide_eq_true_eq]
    have hne : z ∈ visited → z ≠ b := fun hz e => hnot (e ▸ hz)
    constructor
    · rintro ⟨hz, hr⟩
      have := hne hz
      rcases Nat.lt_or_gt_of_ne this with h | h
      · exact .inl ⟨⟨hz, h⟩, hr⟩
      · exact .inr ⟨⟨hz, h⟩, hr⟩
    · rintro (⟨⟨hz, -⟩, hr⟩ | ⟨⟨hz, -⟩, hr⟩)
      · exact ⟨hz, hr⟩
      · exact ⟨hz, hr⟩
  have hbLow : b ∉ low := fun h => Nat.lt_irrefl b (hbelow b h)
  have hbHigh : b ∉ high := fun h => Nat.lt_irrefl b (habove b h)
  refine ⟨?booth, fun z hz => ?others, ?told, (hframeLow.trans (onlyBooths_configRelay u b)).trans hframeHigh⟩
  case booth =>
    have hself' : setDel b (u.booth b).takers = (u.booth b).takers :=
      setDel_of_not_mem (by rw [htakers]; exact fun h => hb (List.mem_filter.mp h).1)
    have htakersSelf : ((u.configRelay b).booth b).takers = (u.booth b).takers := by
      rw [hself b]
      dsimp only
      split
      next h => exact hself'
      next => rfl
    have hfilter : ((u.booth b).takers.filter fun c => c ∉ high) =
        (s.booth b).takers.filter fun z => z ∉ visited.filter fun z => refuses y (s.booth z).config := by
      rw [htakers, List.filter_filter]
      refine List.filter_congr fun z _ => ?_
      simp only [hdropped, not_or, Bool.decide_and, Bool.and_comm]
    rw [hhigh b, htakersSelf]
    simp only [hbHigh, if_false, if_true, hfilter]
    rw [hself b, hsame]
    simp
  case others =>
    rw [hhigh z, hself z, hlow z]
    by_cases hzl : z ∈ low
    · have hzh : z ∉ high := fun h => Nat.lt_asymm (hbelow z hzl) (habove z h)
      simp [hz, hzl, hzh, hdropped]
    · by_cases hzh : z ∈ high <;> simp [hz, hzl, hzh, hdropped]
  case told =>
    have hinputHigh : ∀ z ∈ high, ((u.configRelay b).booth z).input = (s.booth z).input := by
      intro z hz
      have hne : z ≠ b := fun e => hbHigh (e ▸ hz)
      have hzl : z ∉ low := fun h => Nat.lt_asymm (hbelow z h) (habove z hz)
      rw [hself z, hlow z]
      simp [hne, hzl]
    have hownRecords : u.ownDropRecords b (s.ownDrop b) = s.ownDropRecords b (s.ownDrop b) ∨
        s.ownDrop b = some b := by
      cases hsource : s.ownDrop b with
      | none => exact .inl rfl
      | some a =>
        by_cases ha : a = b
        · exact .inr (by rw [ha])
        · refine .inl ?_
          have htakersA : (u.booth a).takers = (s.booth a).takers := by
            rw [hlow a]
            exact if_neg ha
          simp only [State.ownDropRecords, State.takerRecords, htakersA]
    have htoldOwn : ToldBeside u (u.configRelay b) b (s.ownDropRecords b (s.ownDrop b))
        (ownDropNotices b (s.ownDrop b)) := by
      rcases hownRecords with h | h
      · rwa [h] at htoldSelf
      · have hnone : ∀ v : State, b ∉ (v.booth b).takers → v.ownDropRecords b (some b) = [] := by
          intro v hv
          exact if_pos (setDel_of_not_mem hv)
        rw [h] at htoldSelf ⊢
        rw [hnone u (by rw [htakers]; exact fun h => hb (List.mem_filter.mp h).1)] at htoldSelf
        rw [hnone s hb]
        exact htoldSelf
    rw [droppedRecords_congr hinputHigh] at htoldHigh
    refine ((htoldLow.trans htoldOwn).trans htoldHigh).same_records fun r => ?_
    simp only [List.mem_append, mem_droppedRecords, hdropped]
    constructor
    · rintro ((⟨z, hz, h⟩ | h) | ⟨z, hz, h⟩)
      · exact .inl ⟨z, .inl hz, h⟩
      · exact .inr h
      · exact .inl ⟨z, .inr hz, h⟩
    · rintro (⟨z, hz | hz, h⟩ | h)
      · exact .inl (.inl ⟨z, hz, h⟩)
      · exact .inr ⟨z, hz, h⟩
      · exact .inl (.inr h)

end Sys2Proof.Machine
end

section
/-!
PROOFS. What follows the write of a configuration (R30): the language switched or released, the relay, the turn timing.
-/
namespace Sys2Proof.Machine

variable {s : State}

-- Step 2: the selected output language

/-- The seat that goes OFF, if one does. -/
def State.takeOff (s : State) (b : Nat) : Option Nat → State
  | none => s
  | some n => s.setBooth b { (s.booth b).setSeat n ((s.booth b).seat n).offAir with handover := none }

/-- The language released, if one is. -/
def State.disown (s : State) : Option Nat → State
  | none => s
  | some k => s.setOwner k none

/-- The language acquired by booth `b`, if one is. -/
def State.endow (s : State) (b : Nat) : Option Nat → State
  | none => s
  | some l => s.setOwner l (some b)

/-- The language that booth `b` gains by a change of its selected output language to `y` (R7). -/
def State.gains (s : State) (b : Nat) (acts : Bool) (y : Option Nat) : Option Nat :=
  if acts then y.filter fun l => (s.language l).owner = none ∨ (s.language l).owner = some b else none

/-- The language that booth `b` loses by a change of its selected output language from `x` (R8). -/
def State.cedes (s : State) (b : Nat) (acts : Bool) (x : Option Nat) : Option Nat :=
  if acts then x.filter fun k => (s.language k).owner = some b else none

/-- The seat that goes OFF because nothing is gained (R30, step 2). -/
def goesOff (acts : Bool) (gained seat : Option Nat) : Option Nat := if acts && gained.isNone then seat else none

theorem release_eq_disown (s : State) (b : Nat) (x : Option Nat) : s.release b x = s.disown (s.cedes b true x) := by
  unfold State.release State.cedes
  cases x with
  | none => rfl
  | some k => by_cases h : (s.language k).owner = some b <;> simp [h, Option.filter_some, State.disown]

theorem setOwner_of_same {l : Nat} {o : Option Nat} (h : (s.language l).owner = o) : s.setOwner l o = s := by
  simp [State.setOwner, h]

theorem language_disown (s : State) (lost : Option Nat) (j : Nat) :
    (s.disown lost).language j = if lost = some j then { s.language j with owner := none } else s.language j := by
  cases lost with
  | none => simp [State.disown]
  | some k =>
    simp only [State.disown, language_setOwner, Option.some.injEq, eq_comm (a := k)]
    split
    next hj => rw [hj]
    next => rfl

theorem language_endow (s : State) (b : Nat) (gained : Option Nat) (j : Nat) :
    (s.endow b gained).language j =
      if gained = some j then { s.language j with owner := some b } else s.language j := by
  cases gained with
  | none => simp [State.endow]
  | some l =>
    simp only [State.endow, language_setOwner, Option.some.injEq, eq_comm (a := l)]
    split
    next hj => rw [hj]
    next => rfl

@[simp] theorem takeOff_language (s : State) (b : Nat) (off : Option Nat) (j : Nat) :
    (s.takeOff b off).language j = s.language j := by cases off <;> simp [State.takeOff]

@[simp] theorem takeOff_channel (s : State) (b : Nat) (off : Option Nat) (h : Nat) :
    (s.takeOff b off).channel h = s.channel h := by cases off <;> simp [State.takeOff]

@[simp] theorem disown_booth (s : State) (lost : Option Nat) (z : Nat) : (s.disown lost).booth z = s.booth z := by
  cases lost <;> simp [State.disown]

@[simp] theorem endow_booth (s : State) (b : Nat) (gained : Option Nat) (z : Nat) :
    (s.endow b gained).booth z = s.booth z := by cases gained <;> simp [State.endow]

/-- Step 2 of R30: a switch, or the seat OFF with a release. -/
theorem configLanguage_eq {b : Nat} {x y : Option Nat} (hy : (s.booth b).language = y) (hne : x ≠ y) :
    let acts := (s.booth b).onAirSeat.isSome
    let gained := s.gains b acts y
    s.configLanguage b x =
      ((s.takeOff b (goesOff acts gained (s.booth b).onAirSeat)).disown (s.cedes b acts x)).endow b gained := by
  intro acts gained
  unfold State.configLanguage
  dsimp only
  cases hseat : (s.booth b).onAirSeat with
  | none =>
    have hacts : acts = false := by simp [acts, hseat]
    simp [gained, hacts, State.gains, State.cedes, goesOff, State.takeOff, State.disown, State.endow]
  | some n =>
    have hacts : acts = true := by simp [acts, hseat]
    have hoff : ∀ x, s.goOffAir b n x = ((s.takeOff b (some n)).disown (s.cedes b true x)).endow b none := by
      intro x
      have hcedes : (s.takeOff b (some n)).cedes b true x = s.cedes b true x := by simp [State.cedes]
      rw [← hcedes, ← release_eq_disown]
      rfl
    simp only [gained, hacts, hy]
    cases y with
    | none => exact hoff x
    | some l =>
      cases howner : (s.language l).owner with
      | none =>
        have hswitch : s.switchTo b x l = some ((s.release b x).setOwner l (some b)) := by
          rw [State.switchTo, if_neg hne, howner]
        simp only [hswitch, release_eq_disown]
        simp [State.gains, howner, Option.filter_some, goesOff, State.takeOff, State.endow]
      | some o =>
        by_cases ho : o = b
        · have hswitch : s.switchTo b x l = some (s.release b x) := by
            rw [State.switchTo, if_neg hne, howner]
            exact if_pos ho
          have hkept : ((s.disown (s.cedes b true x)).language l).owner = some b := by
            have hnot : ¬ s.cedes b true x = some l := by
              intro h
              have hfilter : x.filter _ = some l := h
              exact hne (Option.filter_eq_some_iff.mp hfilter).1
            rw [language_disown, if_neg hnot, howner, ho]
          simp only [hswitch, release_eq_disown]
          simp [State.gains, howner, ho, Option.filter_some, goesOff, State.takeOff, State.endow,
            setOwner_of_same hkept]
        · have hswitch : s.switchTo b x l = none := by
            rw [State.switchTo, if_neg hne, howner]
            exact if_neg ho
          have hgains : s.gains b true (some l) = none := by simp [State.gains, howner, ho, Option.filter_some]
          simp only [hswitch, hgains]
          exact hoff x

-- What the switch does to the seats, the channels and the ports

theorem booth_takeOff (s : State) (b : Nat) (off : Option Nat) (z : Nat) :
    (s.takeOff b off).booth z =
      if z = b then
        { s.booth b with
          seats := ((s.takeOff b off).booth b).seats
          handover := if off.isSome then none else (s.booth b).handover }
      else s.booth z := by
  cases off with
  | none =>
    split
    next hz => rw [hz]; rfl
    next => rfl
  | some n =>
    simp only [State.takeOff, booth_setBooth, if_true]
    split <;> rfl

theorem seat_takeOff (s : State) (b : Nat) (off : Option Nat) (n : Nat) :
    ((s.takeOff b off).booth b).seat n =
      if off = some n then { (s.booth b).seat n with state := .off, overdue := false } else (s.booth b).seat n := by
  cases off with
  | none => rfl
  | some k =>
    simp only [State.takeOff, booth_setBooth_same, Option.some.injEq]
    refine (seat_setSeat (s.booth b) k n _).trans ?_
    by_cases h : n = k
    · rw [if_pos h, if_pos h.symm, h]
      rfl
    · rw [if_neg h, if_neg (Ne.symm h)]

theorem told_takeOff (s : State) (b : Nat) (off : Option Nat) : ToldBeside s (s.takeOff b off) b [] [] := by
  cases off with
  | none => exact (Told.refl s).silent.beside
  | some n => exact told_beside_setBooth s b _

/-- The records and the notices of a release, if there is one. -/
def State.disownRecords (s : State) : Option Nat → List RecordName
  | none => []
  | some k => s.ownerRecords k none

def State.disownNotices (s : State) : Option Nat → List Notice
  | none => []
  | some k => s.ownerNotices k none

/-- The records and the notices of an acquisition, if there is one. -/
def State.endowRecords (s : State) (b : Nat) : Option Nat → List RecordName
  | none => []
  | some l => s.ownerRecords l (some b)

def State.endowNotices (s : State) (b : Nat) : Option Nat → List Notice
  | none => []
  | some l => s.ownerNotices l (some b)

theorem told_disown (s : State) (lost : Option Nat) :
    Told s (s.disown lost) (s.disownRecords lost) (toOps (s.disownNotices lost)) := by
  cases lost with
  | none => exact (Told.refl s).silent
  | some k => exact told_setOwner s k none

theorem told_endow (s : State) (b : Nat) (gained : Option Nat) :
    Told s (s.endow b gained) (s.endowRecords b gained) (toOps (s.endowNotices b gained)) := by
  cases gained with
  | none => exact (Told.refl s).silent
  | some l => exact told_setOwner s l (some b)

/-- A channel after a release, which changes the owner of the language released (R11). -/
theorem channel_disown (s : State) {b : Nat} {lost : Option Nat}
    (hlost : ∀ k, lost = some k → (s.language k).owner = some b) (h : Nat) :
    (∀ k, lost.filter (fun k => (s.language k).channel = some h) = some k →
      (s.disown lost).channel h = { s.channel h with state := .mapped k }) ∧
    (lost.filter (fun k => (s.language k).channel = some h) = none → (s.disown lost).channel h = s.channel h) := by
  cases lost with
  | none => exact ⟨fun k hk => (nomatch hk), fun _ => rfl⟩
  | some k =>
    have howner := hlost k rfl
    by_cases hc : (s.language k).channel = some h <;>
      simp [Option.filter_some, State.disown, channel_setOwner, State.ownerChannel, howner, hc, boundState]

/-- A channel after an acquisition, which changes the owner of a language that had none (R11). -/
theorem channel_endow (s : State) {b : Nat} {gained : Option Nat}
    (hgained : ∀ l, gained = some l → (s.language l).owner = none ∨ (s.language l).owner = some b) (h : Nat) :
    (∀ l, gained.filter (fun l => (s.language l).owner = none ∧ (s.language l).channel = some h) = some l →
      (s.endow b gained).channel h = { s.channel h with state := .live l }) ∧
    (gained.filter (fun l => (s.language l).owner = none ∧ (s.language l).channel = some h) = none →
      (s.endow b gained).channel h = s.channel h) := by
  cases gained with
  | none => exact ⟨fun l hl => (nomatch hl), fun _ => rfl⟩
  | some l =>
    rcases hgained l rfl with howner | howner
    · by_cases hc : (s.language l).channel = some h <;>
        simp [Option.filter_some, State.endow, channel_setOwner, State.ownerChannel, howner, hc, boundState]
    · simp [Option.filter_some, State.endow, channel_setOwner, State.ownerChannel, howner]

-- Step 5: the turn timing

/-- The seat that has become overdue, if one has. -/
def State.markOverdue (s : State) (b : Nat) : Option Nat → State
  | none => s
  | some n =>
    (s.setBooth b ((s.booth b).setSeat n { (s.booth b).seat n with overdue := true })).notifyOps
      (.turnOverdue b n ((s.booth b).seat n).turn)

/-- The overdue test of the seat on air, if the turn limit has changed (R30, step 5). -/
def State.turnTiming (s : State) (b : Nat) (same : Bool) : State :=
  match (s.booth b).onAirSeat with
  | none => s
  | some n => if same then s else s.overdueTest b n

/-- The seat on air that a new turn limit makes overdue (R43). -/
def Booth.overdueSeat (v : Booth) (same : Bool) : Option Nat :=
  if same then none
  else v.onAirSeat.filter fun n => v.config.turnLimit ≤ (v.seat n).turn ∧ (v.seat n).overdue = false

theorem turnTiming_eq (s : State) (b : Nat) (same : Bool) :
    s.turnTiming b same = s.markOverdue b ((s.booth b).overdueSeat same) := by
  unfold State.turnTiming Booth.overdueSeat
  cases hseat : (s.booth b).onAirSeat with
  | none => cases same <;> rfl
  | some n =>
    have hon : ((s.booth b).seat n).onAir = true := (onAirSeat_some hseat).2.2
    cases same with
    | true => rfl
    | false =>
      unfold State.overdueTest
      by_cases hdue : (s.booth b).config.turnLimit ≤ ((s.booth b).seat n).turn ∧ ((s.booth b).seat n).overdue = false
      · simp [hon, hdue, Option.filter_some, State.markOverdue]
      · have hnot : ¬ (((s.booth b).seat n).onAir && decide ((s.booth b).config.turnLimit ≤ ((s.booth b).seat n).turn) &&
            !((s.booth b).seat n).overdue) = true := by simpa [hon] using hdue
        simp only [Bool.false_eq_true, if_false, hnot, Option.filter_some, hdue, decide_false]
        rfl

theorem booth_markOverdue (s : State) (b : Nat) (overdue : Option Nat) (z : Nat) :
    (s.markOverdue b overdue).booth z =
      if z = b then { s.booth b with seats := ((s.markOverdue b overdue).booth b).seats } else s.booth z := by
  cases overdue with
  | none =>
    split
    next hz => rw [hz]; rfl
    next => rfl
  | some n =>
    simp only [State.markOverdue, notifyOps_eq, notify_booth, booth_setBooth, if_true]
    split <;> rfl

theorem seat_markOverdue (s : State) (b : Nat) (overdue : Option Nat) (n : Nat) :
    ((s.markOverdue b overdue).booth b).seat n =
      if overdue = some n then { (s.booth b).seat n with overdue := true } else (s.booth b).seat n := by
  cases overdue with
  | none => rfl
  | some k =>
    simp only [State.markOverdue, notifyOps_eq, notify_booth, booth_setBooth_same, Option.some.injEq, seat_setSeat]
    by_cases h : n = k
    · rw [if_pos h, if_pos h.symm, h]
    · rw [if_neg h, if_neg (Ne.symm h)]

/-- The notice of a seat that has become overdue (R43). -/
def overdueNotices (v : Booth) (b : Nat) : Option Nat → List Notice
  | none => []
  | some n => [.turnOverdue b n (v.seat n).turn]

theorem told_markOverdue (s : State) (b : Nat) (overdue : Option Nat) :
    ToldBeside s (s.markOverdue b overdue) b [] (overdueNotices (s.booth b) b overdue) := by
  cases overdue with
  | none => exact (Told.refl s).silent.beside
  | some n => exact (told_beside_setBooth s b _).trans (told_notifyOps _ _).beside

@[simp] theorem markOverdue_language (s : State) (b : Nat) (overdue : Option Nat) (j : Nat) :
    (s.markOverdue b overdue).language j = s.language j := by cases overdue <;> simp [State.markOverdue]

@[simp] theorem markOverdue_channel (s : State) (b : Nat) (overdue : Option Nat) (h : Nat) :
    (s.markOverdue b overdue).channel h = s.channel h := by cases overdue <;> simp [State.markOverdue]

end Sys2Proof.Machine
end

section
/-!
PROOFS. What follows the write of a configuration, put together (R30, steps 2 to 5).
-/
namespace Sys2Proof.Machine

variable {s : State}

-- Step 2, put together

/-- From `s` to `t` seat `off` of booth `b` went OFF, language `lost` was released and language `gained` acquired. -/
structure Switched (s t : State) (b : Nat) (gained lost off : Option Nat) : Prop where
  booth    : t.booth b =
    { s.booth b with
      seats := (t.booth b).seats
      handover := if off.isSome then none else (s.booth b).handover }
  seat     : ∀ n, (t.booth b).seat n =
    if off = some n then { (s.booth b).seat n with state := .off, overdue := false } else (s.booth b).seat n
  others   : ∀ z, z ≠ b → t.booth z = s.booth z
  language : ∀ j, t.language j =
    if gained = some j then { s.language j with owner := some b }
    else if lost = some j then { s.language j with owner := none }
    else s.language j
  channel  : ∀ h,
    (∀ l, gained.filter (fun l => (s.language l).owner = none ∧ (s.language l).channel = some h) = some l →
      t.channel h = { s.channel h with state := .live l }) ∧
    (gained.filter (fun l => (s.language l).owner = none ∧ (s.language l).channel = some h) = none →
      (∀ k, lost.filter (fun k => (s.language k).channel = some h) = some k →
        t.channel h = { s.channel h with state := .mapped k }) ∧
      (lost.filter (fun k => (s.language k).channel = some h) = none → t.channel h = s.channel h))
  told     : ToldBeside s t b (s.disownRecords lost ++ (s.disown lost).endowRecords b gained)
    (s.disownNotices lost ++ (s.disown lost).endowNotices b gained)

/-- What is told of an acquisition is read from the languages and the channels. -/
theorem endow_told_congr {t : State} (hl : ∀ l, t.language l = s.language l) (hc : ∀ c, t.channel c = s.channel c)
    (b : Nat) (gained : Option Nat) :
    t.endowRecords b gained = s.endowRecords b gained ∧ t.endowNotices b gained = s.endowNotices b gained := by
  cases gained with
  | none => exact ⟨rfl, rfl⟩
  | some l => exact ⟨ownerRecords_congr hl hc l _, ownerNotices_congr hl hc l _⟩

theorem disown_told_congr {t : State} (hl : ∀ l, t.language l = s.language l) (hc : ∀ c, t.channel c = s.channel c)
    (lost : Option Nat) :
    t.disownRecords lost = s.disownRecords lost ∧ t.disownNotices lost = s.disownNotices lost := by
  cases lost with
  | none => exact ⟨rfl, rfl⟩
  | some k => exact ⟨ownerRecords_congr hl hc k _, ownerNotices_congr hl hc k _⟩

/-- Languages and channels after a release are read from those before it. -/
theorem disown_congr {t : State} (hl : ∀ l, t.language l = s.language l) (hc : ∀ c, t.channel c = s.channel c)
    (lost : Option Nat) :
    (∀ l, (t.disown lost).language l = (s.disown lost).language l) ∧
      ∀ c, (t.disown lost).channel c = (s.disown lost).channel c := by
  refine ⟨fun l => by rw [language_disown, language_disown, hl], fun c => ?_⟩
  cases lost with
  | none => exact hc c
  | some k => simp only [State.disown, channel_setOwner, ownerChannel_congr hl hc]

theorem switched_of {b : Nat} {gained lost : Option Nat} (off : Option Nat) (hne : ∀ l, gained = some l → lost ≠ some l)
    (hgained : ∀ l, gained = some l → (s.language l).owner = none ∨ (s.language l).owner = some b)
    (hlost : ∀ k, lost = some k → (s.language k).owner = some b) :
    Switched s (((s.takeOff b off).disown lost).endow b gained) b gained lost off := by
  have hl := takeOff_language s b off
  have hc := takeOff_channel s b off
  -- the language gained is as it was before the release
  have hkept : ∀ l, gained = some l → ((s.takeOff b off).disown lost).language l = s.language l := fun l hg => by
    rw [language_disown, if_neg (hne l hg), hl]
  have hfilter : ∀ h, gained.filter (fun l => (s.language l).owner = none ∧ (s.language l).channel = some h) =
      gained.filter fun l => (((s.takeOff b off).disown lost).language l).owner = none ∧
        (((s.takeOff b off).disown lost).language l).channel = some h := by
    intro h
    cases gained with
    | none => rfl
    | some l => simp only [Option.filter_some, hkept l rfl]
  have hlow := channel_disown (s.takeOff b off) (b := b) (lost := lost) fun k hk => by rw [hl]; exact hlost k hk
  have hhigh := channel_endow ((s.takeOff b off).disown lost) (b := b) (gained := gained) fun l hg => by
    rw [hkept l hg]; exact hgained l hg
  simp only [hl, hc] at hlow
  refine ⟨?booth, fun n => ?seat, fun z hz => ?others, fun j => ?language, fun h => ?channel, ?told⟩
  case booth =>
    rw [endow_booth, disown_booth, booth_takeOff, if_pos rfl]
  case seat =>
    rw [endow_booth, disown_booth, seat_takeOff]
  case others =>
    rw [endow_booth, disown_booth, booth_takeOff, if_neg hz]
  case language =>
    rw [language_endow]
    split
    next hj => rw [hkept j hj]
    next => rw [language_disown, hl]
  case channel =>
    have hfields : ((s.takeOff b off).disown lost).channel h =
        { s.channel h with state := (((s.takeOff b off).disown lost).channel h).state } := by
      cases hfound : lost.filter fun k => (s.language k).channel = some h with
      | none => rw [(hlow h).2 hfound]
      | some k => rw [(hlow h).1 k hfound]
    rw [hfilter h]
    refine ⟨fun l hfound => ?_, fun hnone => ⟨fun k hfound => ?_, fun hfound => ?_⟩⟩
    · rw [(hhigh h).1 l hfound, hfields]
    · rw [(hhigh h).2 hnone, (hlow h).1 k hfound]
    · rw [(hhigh h).2 hnone, (hlow h).2 hfound]
  case told =>
    have htold := (told_takeOff s b off).trans
      ((told_disown (s.takeOff b off) lost).beside.trans (told_endow ((s.takeOff b off).disown lost) b gained).beside)
    obtain ⟨hdisownLanguage, hdisownChannel⟩ := disown_congr hl hc lost
    rwa [(disown_told_congr hl hc lost).1, (disown_told_congr hl hc lost).2,
      (endow_told_congr hdisownLanguage hdisownChannel b gained).1,
      (endow_told_congr hdisownLanguage hdisownChannel b gained).2] at htold

/-- Where the languages agree with the channels, what is told of the acquisition is as it would be without the release. -/
theorem endow_after_disown {b : Nat} {gained lost : Option Nat} (hagree : s.BindingsAgree)
    (hne : ∀ l, gained = some l → lost ≠ some l) :
    (s.disown lost).endowRecords b gained = s.endowRecords b gained ∧
      (s.disown lost).endowNotices b gained = s.endowNotices b gained := by
  cases gained with
  | none => exact ⟨rfl, rfl⟩
  | some l =>
    cases lost with
    | none => exact ⟨rfl, rfl⟩
    | some k =>
      have hkl : k ≠ l := fun e => hne l rfl (by rw [e])
      refine ownerRecords_after_setOwner hkl ?_
      cases hk : (s.language k).channel with
      | none => exact .inr rfl
      | some c =>
        refine .inl fun hsame => hkl ?_
        have hstate := (hagree.1 k c hk).2.2
        have hstate' := (hagree.1 l c hsame.symm).2.2
        have hboth := congrArg ChannelState.language (hstate.symm.trans hstate')
        simpa using hboth

end Sys2Proof.Machine
end

section
/-!
PROOFS. BOOTH_CONFIG brings language, seats, takers, own relay and turn timing into line (R30).
-/
namespace Sys2Proof.Machine

variable {s : State}

-- The configuration written (R30, step 1)

/-- A configuration that changes a field is told of as such. -/
theorem told_configWritten {b : Nat} {c : BoothConfig} (hne : (s.booth b).config ≠ c) :
    Told s (s.configWritten b c) [.booth b] (toOps []) := by
  have htold := (told_setBooth s b { s.booth b with config := c, selected := (s.booth b).keptOutput c }).silent
  rwa [if_neg fun h => hne (congrArg BoothView.config h).symm] at htold

theorem configWritten_booth_same (s : State) (b : Nat) (c : BoothConfig) :
    (s.configWritten b c).booth b = { s.booth b with config := c, selected := (s.booth b).keptOutput c } :=
  booth_setBooth_same s b _

theorem configWritten_booth_other (s : State) (c : BoothConfig) {b z : Nat} (hz : z ≠ b) :
    (s.configWritten b c).booth z = s.booth z := by rw [State.configWritten, booth_setBooth, if_neg hz]

theorem configWritten_language (s : State) (b : Nat) (c : BoothConfig) (j : Nat) :
    (s.configWritten b c).language j = s.language j := setBooth_language s b _ j

theorem configWritten_channel (s : State) (b : Nat) (c : BoothConfig) (h : Nat) :
    (s.configWritten b c).channel h = s.channel h := setBooth_channel s b _ h

-- What is decided, read before the command

/-- The selected output language that the configuration gives booth `b` (R26, R30). -/
def State.newLanguage (s : State) (b : Nat) (c : BoothConfig) : Option Nat := ((s.configWritten b c).booth b).language

/-- Step 2 acts: the language changes with a seat on air. -/
def State.configActing (s : State) (b : Nat) (c : BoothConfig) : Bool :=
  decide ((s.booth b).language ≠ s.newLanguage b c) && (s.booth b).onAirSeat.isSome

/-- The language gained in step 2. -/
def State.configGained (s : State) (b : Nat) (c : BoothConfig) : Option Nat :=
  s.gains b (s.configActing b c) (s.newLanguage b c)

/-- The language lost in step 2. -/
def State.configLost (s : State) (b : Nat) (c : BoothConfig) : Option Nat :=
  s.cedes b (s.configActing b c) (s.booth b).language

/-- The seat that goes OFF in step 2. -/
def State.configOff (s : State) (b : Nat) (c : BoothConfig) : Option Nat :=
  goesOff (s.configActing b c) (s.configGained b c) (s.booth b).onAirSeat

/-- The takers visited in step 3. -/
def State.configVisited (s : State) (b : Nat) (c : BoothConfig) : List Nat :=
  if (s.booth b).language = s.newLanguage b c then [] else (s.booth b).takers

/-- The takers dropped in step 3. -/
def State.configDropped (s : State) (b : Nat) (c : BoothConfig) : List Nat :=
  (s.configVisited b c).filter fun z => refuses (s.newLanguage b c) (s.booth z).config

/-- The source whose relay is dropped in step 4. -/
def State.configOwn (s : State) (b : Nat) (c : BoothConfig) : Option Nat :=
  match (s.booth b).input with
  | .floor => none
  | .relay a => if refuses (if a = b then s.newLanguage b c else (s.booth a).language) c then some a else none

/-- The part after step 2. -/
def State.configSwitched (s : State) (b : Nat) (c : BoothConfig) : State :=
  (((s.configWritten b c).takeOff b (s.configOff b c)).disown (s.configLost b c)).endow b (s.configGained b c)

/-- The part after steps 3 and 4. -/
def State.configRelayed (s : State) (b : Nat) (c : BoothConfig) : State :=
  (s.configSwitched b c).configRelays b (decide ((s.booth b).language ≠ s.newLanguage b c)) (s.newLanguage b c)

/-- The stages of R30 in their order. -/
theorem configure_eq (s : State) (b : Nat) (c : BoothConfig) :
    s.configure b c =
      (s.configRelayed b c).turnTiming b (decide ((s.booth b).config.turnLimit = c.turnLimit)) := by
  have hseat : ((s.configWritten b c).booth b).onAirSeat = (s.booth b).onAirSeat := by
    rw [configWritten_booth_same]
    rfl
  have hswitched : (if (s.booth b).language = s.newLanguage b c then s.configWritten b c
      else (s.configWritten b c).configLanguage b (s.booth b).language) = s.configSwitched b c := by
    unfold State.configSwitched State.configOff State.configLost State.configGained
    split
    next h =>
      simp [State.configActing, h, State.gains, State.cedes, goesOff, State.takeOff, State.disown, State.endow]
    next h =>
      have hacting : s.configActing b c = (s.booth b).onAirSeat.isSome := by simp [State.configActing, h]
      rw [configLanguage_eq (y := s.newLanguage b c) rfl h]
      simp only [hacting, State.gains, State.cedes, hseat, configWritten_language]
  unfold State.turnTiming State.configRelayed
  simp only [decide_eq_true_eq, ← hswitched]
  rfl

/-- A language gained is the new one, free or the booth's own. -/
theorem gains_some {b : Nat} {acts : Bool} {y : Option Nat} {l : Nat} (h : s.gains b acts y = some l) :
    acts = true ∧ y = some l ∧ ((s.language l).owner = none ∨ (s.language l).owner = some b) := by
  unfold State.gains at h
  split at h
  next ha =>
    obtain ⟨hy, howner⟩ := Option.filter_eq_some_iff.mp h
    exact ⟨ha, hy, of_decide_eq_true howner⟩
  next => exact nomatch h

/-- A language lost is the former one, owned by the booth. -/
theorem cedes_some {b : Nat} {acts : Bool} {x : Option Nat} {k : Nat} (h : s.cedes b acts x = some k) :
    x = some k ∧ (s.language k).owner = some b := by
  unfold State.cedes at h
  split at h
  next =>
    obtain ⟨hx, howner⟩ := Option.filter_eq_some_iff.mp h
    exact ⟨hx, of_decide_eq_true howner⟩
  next => exact nomatch h

theorem configLost_ne_gained {b l : Nat} {c : BoothConfig} (hg : s.configGained b c = some l) :
    s.configLost b c ≠ some l := by
  intro hl
  obtain ⟨hacting, hnew, -⟩ := gains_some hg
  have hformer := (cedes_some hl).1
  unfold State.configActing at hacting
  rw [Bool.and_eq_true, decide_eq_true_eq] at hacting
  exact hacting.1 (hformer.trans hnew.symm)

theorem switched_configSwitched (s : State) (b : Nat) (c : BoothConfig) :
    Switched (s.configWritten b c) (s.configSwitched b c) b (s.configGained b c) (s.configLost b c) (s.configOff b c) :=
  switched_of _ (fun _ hg => configLost_ne_gained hg)
    (fun l hg => by rw [configWritten_language]; exact (gains_some hg).2.2)
    (fun k hl => by rw [configWritten_language]; exact (cedes_some hl).2)

-- Steps 1 to 4

/-- What steps 1 to 4 of R30 bring about, told from the part before the command. -/
structure Relined (s t : State) (b : Nat) (c : BoothConfig) : Prop where
  booth    : t.booth b =
    { s.booth b with
      config := c
      selected := (s.booth b).keptOutput c
      seats := (t.booth b).seats
      handover := if (s.configOff b c).isSome then none else (s.booth b).handover
      input := if (s.configOwn b c).isSome then .floor else (s.booth b).input
      stack := if (s.configOwn b c).isSome then (s.booth b).stack.push (s.booth b).input else (s.booth b).stack
      takers := (s.booth b).takers.filter fun z => z ∉ s.configDropped b c }
  seat     : ∀ n, (t.booth b).seat n =
    if s.configOff b c = some n then { (s.booth b).seat n with state := .off, overdue := false }
    else (s.booth b).seat n
  others   : ∀ z, z ≠ b → t.booth z =
    { s.booth z with
      input := if z ∈ s.configDropped b c then .floor else (s.booth z).input
      stack := if z ∈ s.configDropped b c then (s.booth z).stack.push (.relay b) else (s.booth z).stack
      takers := if s.configOwn b c = some z then setDel b (s.booth z).takers else (s.booth z).takers }
  language : ∀ j, t.language j = (s.configSwitched b c).language j
  channel  : ∀ h, t.channel h = (s.configSwitched b c).channel h
  told     : Told s t
    ([.booth b] ++ (s.disownRecords (s.configLost b c) ++
        (s.disown (s.configLost b c)).endowRecords b (s.configGained b c) ++
      (s.droppedRecords (s.configDropped b c) ++ s.ownDropRecords b (s.configOwn b c))))
    (toOps (s.disownNotices (s.configLost b c) ++ (s.disown (s.configLost b c)).endowNotices b (s.configGained b c) ++
      (((s.configVisited b c).filter (· < b)).map (fun z => visitNotice b (s.newLanguage b c) (s.booth z).config z) ++
        ownDropNotices b (s.configOwn b c) ++
        ((s.configVisited b c).filter (b < ·)).map fun z =>
          visitNotice b (s.newLanguage b c) (s.booth z).config z)))

theorem not_mem_configVisited {b : Nat} {c : BoothConfig} (hb : b ∉ (s.booth b).takers) : b ∉ s.configVisited b c := by
  unfold State.configVisited
  split
  · exact List.not_mem_nil
  · exact hb

/-- Steps 1 to 4 of R30, each by its own rule. -/
theorem relined_configRelayed {b : Nat} {c : BoothConfig} (hne : (s.booth b).config ≠ c) (hrise : s.TakersRise) :
    Relined s (s.configRelayed b c) b c := by
  obtain ⟨hub, hus, huo, hul, huc, hutold⟩ := switched_configSwitched s b c
  have hsame := configWritten_booth_same s b c
  have hother := fun z (hz : z ≠ b) => (huo z hz).trans (configWritten_booth_other s c hz)
  rw [hsame] at hub hus
  -- what steps 3 and 4 read is as before the command, but for the booth's own configuration
  have hinput : ∀ z, ((s.configSwitched b c).booth z).input = (s.booth z).input := fun z => by
    by_cases hz : z = b
    · rw [hz, hub]
    · rw [hother z hz]
  have htakers : ∀ z, ((s.configSwitched b c).booth z).takers = (s.booth z).takers := fun z => by
    by_cases hz : z = b
    · rw [hz, hub]
    · rw [hother z hz]
  have hlanguage : ∀ a, ((s.configSwitched b c).booth a).language =
      if a = b then s.newLanguage b c else (s.booth a).language := fun a => by
    split
    next ha => rw [ha, hub, State.newLanguage, hsame]; rfl
    next ha => rw [hother a ha]
  have hown : (s.configSwitched b c).ownDrop b = s.configOwn b c := by
    have hconfig : ((s.configSwitched b c).booth b).config = c := by rw [hub]
    unfold State.ownDrop State.configOwn
    rw [hinput, hconfig]
    cases (s.booth b).input with
    | floor => rfl
    | relay a => simp only [hlanguage]
  have hconfig : ∀ z ∈ s.configVisited b c, ((s.configSwitched b c).booth z).config = (s.booth z).config :=
    fun z hz => by rw [hother z fun e => not_mem_configVisited (hrise b).2 (e ▸ hz)]
  have hrelayed := relayed_configRelays (s := s.configSwitched b c) (b := b) (y := s.newLanguage b c)
    (decide ((s.booth b).language ≠ s.newLanguage b c)) (by rw [htakers]; exact (hrise b).1)
    (by rw [htakers]; exact (hrise b).2)
  have hvisited : (if decide ((s.booth b).language ≠ s.newLanguage b c) then ((s.configSwitched b c).booth b).takers
      else []) = s.configVisited b c := by
    simp only [decide_eq_true_eq, ite_not, htakers, State.configVisited]
  have hdropped : ((s.configVisited b c).filter fun z =>
      refuses (s.newLanguage b c) ((s.configSwitched b c).booth z).config) = s.configDropped b c :=
    List.filter_congr fun z hz => by rw [hconfig z hz]
  dsimp only at hrelayed
  rw [hvisited, hdropped, hown] at hrelayed
  obtain ⟨hrb, hro, hrtold, hrframe⟩ := hrelayed
  refine ⟨?booth, fun n => ?seat, fun z hz => ?others, fun j => ?language, fun h => ?channel, ?told⟩
  case booth => rw [State.configRelayed, hrb, hub]
  case seat =>
    rw [State.configRelayed, hrb]
    exact hus n
  case others => rw [State.configRelayed, hro z hz, hother z hz]
  case language => rw [State.configRelayed, hrframe]; rfl
  case channel => rw [State.configRelayed, hrframe]; rfl
  case told =>
    have hwl := configWritten_language s b c
    have hwc := configWritten_channel s b c
    obtain ⟨hdisownLanguage, hdisownChannel⟩ := disown_congr hwl hwc (s.configLost b c)
    have hownRecords : (s.configSwitched b c).ownDropRecords b (s.configOwn b c) =
        s.ownDropRecords b (s.configOwn b c) := by
      cases s.configOwn b c with
      | none => rfl
      | some a => simp only [State.ownDropRecords, State.takerRecords, htakers]
    have hvisits : ∀ p : Nat → Bool, (((s.configVisited b c).filter p).map fun z =>
        visitNotice b (s.newLanguage b c) ((s.configSwitched b c).booth z).config z) =
        ((s.configVisited b c).filter p).map fun z => visitNotice b (s.newLanguage b c) (s.booth z).config z :=
      fun p => List.map_congr_left fun z hz => by rw [hconfig z (List.mem_filter.mp hz).1]
    rw [(disown_told_congr hwl hwc _).1, (disown_told_congr hwl hwc _).2,
      (endow_told_congr hdisownLanguage hdisownChannel b _).1,
      (endow_told_congr hdisownLanguage hdisownChannel b _).2] at hutold
    rw [droppedRecords_congr fun z _ => hinput z, hownRecords, hvisits, hvisits] at hrtold
    exact (told_configWritten hne).then_beside (List.mem_singleton.mpr rfl) (hutold.trans hrtold)

-- Step 5

/-- The on-air seat that is left when seat `off` goes OFF, if turn limit `limit`, a new one, makes it overdue (R43). -/
def Booth.lateSeat (v : Booth) (off : Option Nat) (limit : Nat) : Option Nat :=
  if limit = v.config.turnLimit then none
  else ([1, 2, 3].find? fun n => (v.seat n).onAir && off ≠ some n).filter fun n =>
    limit ≤ (v.seat n).turn ∧ (v.seat n).overdue = false

theorem overdueSeat_after {v v' : Booth} {off : Option Nat} {limit : Nat} (hlimit : v'.config.turnLimit = limit)
    (hseat : ∀ n, v'.seat n = if off = some n then { v.seat n with state := .off, overdue := false } else v.seat n) :
    v'.overdueSeat (decide (v.config.turnLimit = limit)) = v.lateSeat off limit := by
  have hair : v'.onAirSeat = [1, 2, 3].find? fun n => (v.seat n).onAir && off ≠ some n := by
    unfold Booth.onAirSeat
    congr 1
    funext n
    rw [hseat n]
    by_cases h : off = some n <;> simp [h, Seat.onAir]
  unfold Booth.overdueSeat Booth.lateSeat
  rw [hair, hlimit]
  simp only [decide_eq_true_eq, eq_comm (a := v.config.turnLimit)]
  cases hfound : [1, 2, 3].find? fun n => (v.seat n).onAir && off ≠ some n with
  | none => rfl
  | some n =>
    have hnot : off ≠ some n := by
      have h := List.find?_some hfound
      simp only [Bool.and_eq_true, decide_eq_true_eq] at h
      exact h.2
    simp only [Option.filter_some, hseat n, hnot, if_false]

theorem lateSeat_ne_off {v : Booth} {off : Option Nat} {limit n : Nat} (h : v.lateSeat off limit = some n) :
    off ≠ some n := by
  unfold Booth.lateSeat at h
  split at h
  · exact nomatch h
  · have hp := List.find?_some (Option.filter_eq_some_iff.mp h).1
    simp only [Bool.and_eq_true, decide_eq_true_eq] at hp
    exact hp.2

-- Steps 1 to 5, and what they are told of

/-- The taker's notice by the list of those dropped. -/
theorem visitNotice_configVisited {b : Nat} {c : BoothConfig} {visit : Nat → Notice}
    (hvisit : ∀ z, visit z =
      match s.newLanguage b c with
      | some l => if z ∈ s.configDropped b c then .relayDropped z b .notUnderstood else .relayFollowed z b l
      | none => .relayDropped z b .notUnderstood) (p : Nat → Bool) :
    (((s.configVisited b c).filter p).map fun z => visitNotice b (s.newLanguage b c) (s.booth z).config z) =
      ((s.configVisited b c).filter p).map visit := by
  refine List.map_congr_left fun z hz => ?_
  have hmem : z ∈ s.configDropped b c ↔ refuses (s.newLanguage b c) (s.booth z).config = true := by
    simp [State.configDropped, (List.mem_filter.mp hz).1]
  rw [hvisit]
  cases hnew : s.newLanguage b c with
  | none => rfl
  | some l => simp only [visitNotice, hmem, hnew]

theorem overdueNotices_congr {v v' : Booth} {b : Nat} {off late : Option Nat}
    (hseat : ∀ n, v'.seat n = if off = some n then { v.seat n with state := .off, overdue := false } else v.seat n) :
    overdueNotices v' b late = overdueNotices v b late := by
  have hturn : ∀ n, (v'.seat n).turn = (v.seat n).turn := fun n => by
    rw [hseat]
    split <;> rfl
  cases late with
  | none => rfl
  | some n => simp only [overdueNotices, hturn]

/-- Steps 2 to 5 of R30, assembled. -/
theorem configure_acts {b : Nat} {c : BoothConfig} (hne : (s.booth b).config ≠ c) (hrise : s.TakersRise) :
    ∃ records notices, Told s (s.configure b c) records (toOps notices) ∧ .booth b ∈ records ∧
      ConfigActs s (s.configure b c) b c records notices := by
  obtain ⟨hrb, hrseat, hro, hrl, hrc, hrtold⟩ := relined_configRelayed hne hrise
  obtain ⟨-, -, -, hul, huc, -⟩ := switched_configSwitched s b c
  simp only [configWritten_language, configWritten_channel] at hul huc
  have hlimit : ((s.configRelayed b c).booth b).config.turnLimit = c.turnLimit := by rw [hrb]
  have heq : s.configure b c =
      (s.configRelayed b c).markOverdue b ((s.booth b).lateSeat (s.configOff b c) c.turnLimit) := by
    rw [configure_eq, turnTiming_eq, overdueSeat_after hlimit hrseat]
  have htold := hrtold.then_beside (List.mem_append_left _ (List.mem_singleton.mpr rfl))
    (told_markOverdue _ b ((s.booth b).lateSeat (s.configOff b c) c.turnLimit))
  rw [heq]
  refine ⟨_, _, htold, List.mem_append_left _ (List.mem_append_left _ (List.mem_singleton.mpr rfl)), ?_⟩
  unfold ConfigActs
  intro v kept x y acts gained lost off visited dropped own still overdue visit
  have hkept : kept = v.keptOutput c := by
    simp only [kept, Booth.keptOutput, Bool.and_eq_true, decide_eq_true_eq, Option.isNone_iff_eq_none]
  have hy : y = s.newLanguage b c := by
    rw [State.newLanguage, configWritten_booth_same]
    simp only [y, hkept]
    rfl
  have hacts : acts = s.configActing b c := by rw [State.configActing, ← hy]
  have hgained : gained = s.configGained b c := by rw [State.configGained, ← hacts, ← hy]; rfl
  have hlost : lost = s.configLost b c := by rw [State.configLost, ← hacts]; rfl
  have hoff : off = s.configOff b c := by rw [State.configOff, ← hacts, ← hgained]; rfl
  have hvisited : visited = s.configVisited b c := by rw [State.configVisited, ← hy]
  have hdropped : dropped = s.configDropped b c := by rw [State.configDropped, ← hvisited, ← hy]; rfl
  have hlate : overdue = (s.booth b).lateSeat (s.configOff b c) c.turnLimit := by rw [← hoff]; rfl
  have hown : own = s.configOwn b c := by
    simp only [own, State.configOwn, refuses, hy]
    cases (s.booth b).input with
    | floor => rfl
    | relay a =>
      simp only [Bool.not_eq_true', ← Bool.not_eq_true, ite_not]
  have hvisit : ∀ z, visit z =
      match s.newLanguage b c with
      | some l => if z ∈ s.configDropped b c then .relayDropped z b .notUnderstood else .relayFollowed z b l
      | none => .relayDropped z b .notUnderstood := fun z => by
    simp only [visit, hy, hdropped] <;> rfl
  clear_value kept y acts gained lost off visited dropped own overdue visit
  subst hgained hlost hoff hdropped hlate hown
  refine ⟨fun j => ?language, fun h => ?channel, fun n => ?seat, ?booth, fun z hz => ?others, fun hagree => ?records,
    fun hagree => ?notices⟩
  case language => rw [markOverdue_language, hrl, hul]
  case channel =>
    rw [markOverdue_channel, hrc]
    split
    next _ l hfound => exact (huc h).1 l hfound
    next k hnone hfound => exact ((huc h).2 hnone).1 k hfound
    next hnone hnone' => exact ((huc h).2 hnone).2 hnone'
  case seat =>
    rw [seat_markOverdue, hrseat]
    by_cases hn : (s.booth b).lateSeat (s.configOff b c) c.turnLimit = some n
    · rw [if_pos hn, if_neg (lateSeat_ne_off hn), if_neg (lateSeat_ne_off hn), if_pos hn]
    · rw [if_neg hn, if_neg hn]
  case booth => rw [booth_markOverdue, if_pos rfl, hrb, hkept]
  case others => rw [booth_markOverdue, if_neg hz, hro z hz]
  case records =>
    calc _ = [.booth b] ++ s.disownRecords (s.configLost b c) ++ s.endowRecords b (s.configGained b c) ++
          s.droppedRecords (s.configDropped b c) ++ s.ownDropRecords b (s.configOwn b c) := by
            rw [(endow_after_disown hagree fun _ hg => configLost_ne_gained hg).1]
            simp only [List.append_assoc, List.append_nil]
      _ = _ := by
        refine congrArg₂ HAppend.hAppend (congrArg₂ HAppend.hAppend ?_ rfl) ?_
        · cases s.configLost b c <;> cases s.configGained b c <;> rfl
        · cases s.configOwn b c <;> rfl
  case notices =>
    calc _ = s.disownNotices (s.configLost b c) ++ s.endowNotices b (s.configGained b c) ++
          ((visited.filter (· < b)).map visit ++ ownDropNotices b (s.configOwn b c) ++
            (visited.filter (b < ·)).map visit) ++
          overdueNotices (s.booth b) b ((s.booth b).lateSeat (s.configOff b c) c.turnLimit) := by
            rw [(endow_after_disown hagree fun _ hg => configLost_ne_gained hg).2, visitNotice_configVisited hvisit,
              visitNotice_configVisited hvisit, overdueNotices_congr hrseat, hvisited]
      _ = _ := by
        refine congrArg₂ HAppend.hAppend (congrArg₂ HAppend.hAppend ?_ ?_) ?_
        · cases s.configLost b c <;> cases s.configGained b c <;> rfl
        · cases s.configOwn b c <;> rfl
        · cases (s.booth b).lateSeat (s.configOff b c) c.turnLimit <;> rfl

end Sys2Proof.Machine
end

section
/-!
PROOFS. BOOTH_CONFIG (R29, R30, R31, R208), settled.
-/
namespace Sys2Proof.Machine

variable {s : State}

-- The bytes of a configuration (R29, R207, R208)

theorem mem_setOf {l : List Nat} {j : Nat} : j ∈ setOf l ↔ j ∈ l := by
  induction l with
  | nil => rfl
  | cons k rest ih => rw [setOf, mem_setAdd, ih, List.mem_cons]

theorem outputOf_eq_none_iff {x : Byte} : outputOf x = none ↔ x ≠ 0xFF ∧ 31 < x.toNat := by
  unfold outputOf
  split_ifs <;> simp_all

/-- The language an output byte names, if any. -/
theorem outputOf_names {x : Byte} {o : Option Nat} (h : outputOf x = some o) (l : Nat) :
    l ∈ o.toList ↔ x ≠ 0xFF ∧ l = x.toNat := by
  unfold outputOf at h
  split_ifs at h with hnone hin
  · obtain rfl := Option.some.inj h
    simp [hnone]
  · obtain rfl := Option.some.inj h
    have hne : x ≠ 0xFF := hnone
    simp only [Option.mem_toList, Option.some.injEq, hne, ne_eq, not_false_eq_true, true_and, eq_comm]

theorem modeOf_eq_none_iff {m : Byte} : modeOf m = none ↔ 1 < m.toNat := by
  have h0 : m = 0x00 ↔ m.toNat = 0 := (BitVec.toNat_eq (y := 0x00))
  have h1 : m = 0x01 ↔ m.toNat = 1 := (BitVec.toNat_eq (y := 0x01))
  unfold modeOf
  split_ifs with hzero hone
  · simp [h0.mp hzero]
  · simp [h1.mp hone]
  · rw [h0] at hzero
    rw [h1] at hone
    exact ⟨fun _ => by omega, fun _ => rfl⟩

/-- The bytes of an accepted set are as R29 and R208 want them. -/
theorem acceptedOf_eq (count : Byte) (members : List Byte) :
    acceptedOf count members =
      if 4 < count.toNat ∨ (∃ x ∈ members.take count.toNat, 31 < x.toNat) ∨ ¬ (members.take count.toNat).Nodup ∨
        ∃ x ∈ members.drop count.toNat, x ≠ 0xFF then none
      else some (setOf ((members.take count.toNat).map (·.toNat))) := by
  have hgood : (decide (count.toNat ≤ 4) && (members.take count.toNat).all (fun b => decide (b.toNat ≤ 31)) &&
      decide (members.take count.toNat).Nodup && (members.drop count.toNat).all fun b => decide (b = 0xFF)) = true ↔
      ¬ (4 < count.toNat ∨ (∃ x ∈ members.take count.toNat, 31 < x.toNat) ∨ ¬ (members.take count.toNat).Nodup ∨
        ∃ x ∈ members.drop count.toNat, x ≠ 0xFF) := by
    simp only [Bool.and_eq_true, decide_eq_true_eq, List.all_eq_true, not_or, not_exists, not_and, not_lt, not_not, ne_eq,
      and_assoc]
  exact (if_congr hgood rfl rfl).trans (ite_not ..)

/-- A configuration names an undefined language if one of its bytes does (R29). -/
theorem undefinedIn_eq {outA outB : Byte} {a o : Option Nat} {named : List Byte} {c : BoothConfig}
    (ha : outputOf outA = some a) (ho : outputOf outB = some o) (hA : c.outputA = a) (hB : c.outputB = o)
    (haccepted : c.accepted = setOf (named.map (·.toNat))) :
    s.undefinedIn c =
      decide (∃ x ∈ [outA, outB].filter (fun x => x ≠ 0xFF) ++ named, (s.language x.toNat).defined = false) := by
  subst hA hB
  rw [Bool.eq_iff_iff]
  simp only [State.undefinedIn, List.any_eq_true, List.mem_append, outputOf_names ha, outputOf_names ho, haccepted,
    mem_setOf, List.mem_map, List.mem_filter, List.mem_cons, List.not_mem_nil, or_false, decide_eq_true_eq,
    Bool.not_eq_true']
  constructor
  · rintro ⟨l, (⟨hne, rfl⟩ | ⟨hne, rfl⟩) | ⟨x, hx, rfl⟩, hl⟩
    · exact ⟨outA, .inl ⟨.inl rfl, hne⟩, hl⟩
    · exact ⟨outB, .inl ⟨.inr rfl, hne⟩, hl⟩
    · exact ⟨x, .inr hx, hl⟩
  · rintro ⟨x, ⟨rfl | rfl, hne⟩ | hx, hl⟩
    · exact ⟨x.toNat, .inl (.inl ⟨hne, rfl⟩), hl⟩
    · exact ⟨x.toNat, .inl (.inr ⟨hne, rfl⟩), hl⟩
    · exact ⟨x.toNat, .inr ⟨x, hx, rfl⟩, hl⟩

-- The refusals (R29)

section
variable {flags booth outA outB mode count m1 m2 m3 m4 limit : Byte}

theorem malformed_iff :
    (conditionOf flags = none ∨ outputOf outA = none ∨ outputOf outB = none ∨ modeOf mode = none ∨
        acceptedOf count [m1, m2, m3, m4] = none) ↔
      1 < flags.toNat ∨ (∃ x ∈ [outA, outB], x ≠ 0xFF ∧ 31 < x.toNat) ∨ 4 < count.toNat ∨
        (∃ x ∈ [m1, m2, m3, m4].take count.toNat, 31 < x.toNat) ∨ ¬ ([m1, m2, m3, m4].take count.toNat).Nodup ∨
        (∃ x ∈ [m1, m2, m3, m4].drop count.toNat, x ≠ 0xFF) ∨ 1 < mode.toNat := by
  have hflags : conditionOf flags = none ↔ 1 < flags.toNat :=
    ⟨fun h => not_not.mp fun hn => (nomatch (conditionOf_of_not_lt hn).symm.trans h), conditionOf_of_lt⟩
  have houts : (∃ x ∈ [outA, outB], x ≠ 0xFF ∧ 31 < x.toNat) ↔ outputOf outA = none ∨ outputOf outB = none := by
    rw [outputOf_eq_none_iff, outputOf_eq_none_iff]
    simp
  have haccepted : acceptedOf count [m1, m2, m3, m4] = none ↔
      4 < count.toNat ∨ (∃ x ∈ [m1, m2, m3, m4].take count.toNat, 31 < x.toNat) ∨
        ¬ ([m1, m2, m3, m4].take count.toNat).Nodup ∨ ∃ x ∈ [m1, m2, m3, m4].drop count.toNat, x ≠ 0xFF := by
    rw [acceptedOf_eq]
    exact ⟨fun h => not_not.mp fun hn => (nomatch (if_neg hn).symm.trans h), fun h => if_pos h⟩
  rw [hflags, houts, haccepted, modeOf_eq_none_iff]
  exact iff_of_eq (by ac_rfl)

theorem doBoothConfig_malformed
    (h : conditionOf flags = none ∨ outputOf outA = none ∨ outputOf outB = none ∨ modeOf mode = none ∨
        acceptedOf count [m1, m2, m3, m4] = none) :
    doBoothConfig .ops [flags, booth, outA, outB, mode, count, m1, m2, m3, m4, limit] s = refuse s .badArg := by
  unfold doBoothConfig
  dsimp only
  split
  next hflags houtA houtB hmode haccepted => simp [hflags, houtA, houtB, hmode, haccepted] at h
  next => rfl

theorem doBoothConfig_refused {x : Result}
    (h : firstFailure (boothConfigChecks s flags booth outA outB mode count [m1, m2, m3, m4] limit) = some x) :
    doBoothConfig .ops [flags, booth, outA, outB, mode, count, m1, m2, m3, m4, limit] s = refuse s x := by
  unfold boothConfigChecks at h
  dsimp only at h
  simp only [firstFailure_cons, firstFailure_nil] at h
  have hmalformed := malformed_iff (flags := flags) (outA := outA) (outB := outB) (mode := mode) (count := count)
    (m1 := m1) (m2 := m2) (m3 := m3) (m4 := m4)
  have hcheck : (1 < flags.toNat ∨ badBooth s booth = true ∨ (∃ x ∈ [outA, outB], x ≠ 0xFF ∧ 31 < x.toNat) ∨
      4 < count.toNat ∨ (∃ x ∈ [m1, m2, m3, m4].take count.toNat, 31 < x.toNat) ∨
      ¬ ([m1, m2, m3, m4].take count.toNat).Nodup ∨ (∃ x ∈ [m1, m2, m3, m4].drop count.toNat, x ≠ 0xFF) ∨
      1 < mode.toNat ∨ limit.toNat < 10 ∨ 90 < limit.toNat) ↔
      (conditionOf flags = none ∨ outputOf outA = none ∨ outputOf outB = none ∨ modeOf mode = none ∨
        acceptedOf count [m1, m2, m3, m4] = none) ∨ (badBooth s booth = true ∨ limit.toNat < 10) ∨ 90 < limit.toNat := by
    rw [hmalformed]
    exact iff_of_eq (by ac_rfl)
  simp only [hcheck] at h
  by_cases hnone : conditionOf flags = none ∨ outputOf outA = none ∨ outputOf outB = none ∨ modeOf mode = none ∨
      acceptedOf count [m1, m2, m3, m4] = none
  · rw [if_pos (decide_eq_true (.inl hnone))] at h
    rw [doBoothConfig_malformed hnone, ← Option.some.inj h]
  · simp only [hnone, false_or] at h
    simp only [not_or] at hnone
    obtain ⟨hcond, ha, ho, hm, hacc⟩ := hnone
    have hflags : ¬ 1 < flags.toNat := fun hf => hcond (conditionOf_of_lt hf)
    obtain ⟨a, ha⟩ := Option.ne_none_iff_exists'.mp ha
    obtain ⟨o, ho⟩ := Option.ne_none_iff_exists'.mp ho
    obtain ⟨m, hm⟩ := Option.ne_none_iff_exists'.mp hm
    have haccepted : acceptedOf count [m1, m2, m3, m4] =
        some (setOf (([m1, m2, m3, m4].take count.toNat).map (·.toNat))) := by
      rw [acceptedOf_eq] at hacc ⊢
      exact if_neg fun h => hacc (if_pos h)
    simp only [doBoothConfig, conditionOf_of_not_lt hflags, ha, ho, hm, haccepted, conditionMet_eq_not_lostTo, Bool.not_not]
    refine refuse_of_check s ?_ h fun h => refuse_of_check s ?_ h fun h => refuse_of_check s ?_ h fun h => nomatch h
    · rw [decide_eq_true_eq, badBooth_eq]
      simp only [Bool.or_eq_true, decide_eq_true_eq]
    · rfl
    · rw [undefinedIn_eq ha ho rfl rfl rfl]

end

-- An accepted configuration (R30, R31)

/-- The part after an accepted BOOTH_CONFIG: a configuration equal to the present one does nothing (R31). -/
def State.boothConfigured (s : State) (b : Nat) (c : BoothConfig) : State :=
  if (s.booth b).config = c then s else s.configure b c

theorem doBoothConfig_accepted {cond : Bool} {booth outA outB modeByte count m1 m2 m3 m4 limit : Byte} {c : BoothConfig}
    (hok : s.boothOk booth = true) (ha : outputOf outA = some c.outputA) (ho : outputOf outB = some c.outputB)
    (hm : modeOf modeByte = some c.mode) (hacc : acceptedOf count [m1, m2, m3, m4] = some c.accepted)
    (hlimit : limit.toNat = c.turnLimit) (hlow : 10 ≤ c.turnLimit) (hhigh : c.turnLimit ≤ 90)
    (hallow : s.Allows cond .ops ⟨.booth booth.toNat, 0⟩)
    (hdefined : ∀ l, c.outputA = some l ∨ c.outputB = some l ∨ l ∈ c.accepted → (s.language l).defined = true) :
    doBoothConfig .ops [flagByte cond, booth, outA, outB, modeByte, count, m1, m2, m3, m4, limit] s =
      ((s.boothConfigured booth.toNat c).consume cond .ops, .bare .ok) := by
  have hundefined : s.undefinedIn c = false := by
    simp only [State.undefinedIn, List.any_eq_false, List.mem_append, Option.mem_toList, Bool.not_eq_true']
    rintro l ((h | h) | h)
    · simp [hdefined l (.inl h)]
    · simp [hdefined l (.inr (.inl h))]
    · simp [hdefined l (.inr (.inr h))]
  have hin : ¬ (!s.boothOk booth || decide (limit.toNat < 10) || decide (90 < limit.toNat)) = true := by
    simp only [hok, Bool.not_true, Bool.false_or, Bool.or_eq_true, decide_eq_true_eq]
    omega
  simp only [doBoothConfig, conditionOf_flagByte, ha, ho, hm, hacc, conditionMet_of_allows s hallow]
  rw [if_neg hin, if_neg (by decide), hlimit, if_neg (by simp [hundefined])]
  unfold State.boothConfigured
  split <;> rfl

/-- What an accepted configuration leaves alone, and what it writes (R30, R31). -/
structure Configured (s t : State) (b : Nat) (c : BoothConfig) : Prop where
  config   : (t.booth b).config = c
  selected : (t.booth b).selected =
    if (s.booth b).selected = .b ∧ c.outputB = none ∧ (s.booth b).config ≠ c then .a else (s.booth b).selected
  others   : ∀ x, x ≠ b → (s.booth x).SameButRelay (t.booth x)
  seats    : ∀ x n, ((t.booth x).seat n).turn = ((s.booth x).seat n).turn ∧
    ((t.booth x).seat n).liveMinutes = ((s.booth x).seat n).liveMinutes
  link     : (t.booth b).link = (s.booth b).link
  granted  : (t.booth b).granted = (s.booth b).granted
  flash    : (t.booth b).flash = (s.booth b).flash
  language : ∀ l, t.language l = { s.language l with owner := (t.language l).owner }
  channel  : ∀ x, t.channel x = { s.channel x with state := (t.channel x).state }
  told     : ∃ records notices, Told s t records (toOps notices) ∧
    ((s.booth b).config ≠ c → .booth b ∈ records) ∧ ((s.booth b).config = c → records = [] ∧ notices = []) ∧
    ((s.booth b).config ≠ c → s.TakersRise → ConfigActs s t b c records notices)
  hall     : s.OnlyHall t

/-- A configuration equal to the present one does nothing (R31). -/
theorem configured_same {b : Nat} {c : BoothConfig} (h : (s.booth b).config = c) : Configured s s b c where
  config := h
  selected := (if_neg fun hn => hn.2.2 h).symm
  others _ _ := rfl
  seats _ _ := ⟨rfl, rfl⟩
  link := rfl
  granted := rfl
  flash := rfl
  language _ := rfl
  channel _ := rfl
  told := ⟨[], [], (Told.refl s).silent, fun hn => absurd h hn, fun _ => ⟨rfl, rfl⟩, fun hn => absurd h hn⟩
  hall := rfl

/-- The steps of a configuration, whatever the takers are: what is told of them, and that the booth is among the records. -/
theorem told_configure {b : Nat} {c : BoothConfig} (hne : (s.booth b).config ≠ c) :
    ∃ records notices, Told s (s.configure b c) records (toOps notices) ∧ .booth b ∈ records ∧
      (s.TakersRise → ConfigActs s (s.configure b c) b c records notices) := by
  by_cases hrise : s.TakersRise
  · obtain ⟨rs, ns, htold, hmem, hacts⟩ := configure_acts hne hrise
    exact ⟨rs, ns, htold, hmem, fun _ => hacts⟩
  · obtain ⟨rs, ns, htold⟩ := (aligned_configure s b c).told
    exact ⟨_, _, (told_configWritten hne).trans_ops htold, List.mem_append_left _ (List.mem_singleton.mpr rfl),
      fun h => absurd h hrise⟩

theorem configured_changed {b : Nat} {c : BoothConfig} (hne : (s.booth b).config ≠ c) :
    Configured s (s.configure b c) b c := by
  have halign := aligned_configure s b c
  have hwb : (s.configWritten b c).booth b = { s.booth b with config := c, selected := (s.booth b).keptOutput c } :=
    booth_setBooth_same s b _
  have hwo : ∀ z, z ≠ b → (s.configWritten b c).booth z = s.booth z := fun z hz => by
    rw [State.configWritten, booth_setBooth, if_neg hz]
  obtain ⟨rs, ns, htold, hmem, hacts⟩ := told_configure hne
  refine ⟨?_, ?_, fun x hx => ?_, fun x n => ?_, ?_, ?_, ?_, fun l => ?_, fun x => ?_,
    ⟨rs, ns, htold, fun _ => hmem, fun h => absurd h hne, fun _ => hacts⟩, ?_⟩
  · rw [halign.config, hwb]
  · rw [halign.selected, hwb]
    simp only [Booth.keptOutput, hne, Bool.and_eq_true, decide_eq_true_eq, Option.isNone_iff_eq_none, ne_eq,
      not_false_eq_true, and_true]
  · have h := halign.others x hx
    rwa [hwo x hx] at h
  · by_cases hx : x = b
    · subst hx
      have h := halign.seats n
      rw [hwb] at h
      exact h
    · have h := halign.others x hx
      rw [hwo x hx] at h
      rw [h]
      exact ⟨rfl, rfl⟩
  · rw [halign.link, hwb]
  · rw [halign.granted, hwb]
  · rw [halign.flash, hwb]
  · have h := halign.language l
    rwa [State.configWritten, setBooth_language] at h
  · have h := halign.channel x
    rwa [State.configWritten, setBooth_channel] at h
  · exact (onlyBooths_setBooth s b _).hall.trans halign.hall

theorem configured_boothConfigured (s : State) (b : Nat) (c : BoothConfig) : Configured s (s.boothConfigured b c) b c := by
  unfold State.boothConfigured
  split
  next h => exact configured_same h
  next h => exact configured_changed h

/-- What a configuration brings into line is read from languages, channels and booths alone. -/
theorem configActs_congr {t t' : State} {b : Nat} {c : BoothConfig} {records : List RecordName} {notices : List Notice}
    (h : ConfigActs s t b c records notices) (hl : t'.languages = t.languages) (hc : t'.channels = t.channels)
    (hb : t'.booths = t.booths) : ConfigActs s t' b c records notices := by
  have hlanguage : t'.language = t.language := by unfold State.language; rw [hl]
  have hchannel : t'.channel = t.channel := by unfold State.channel; rw [hc]
  have hbooth : t'.booth = t.booth := by unfold State.booth; rw [hb]
  unfold ConfigActs at *
  rwa [hlanguage, hchannel, hbooth]

/-- Settles O9: the checks in their order, then the write of the configuration and the steps that follow it
(`configure_acts`). -/
theorem boothConfigWrites : Obligations.BoothConfigWrites := by
  refine ⟨fun s tag flags booth outA outB mode count m1 m2 m3 m4 limit ht =>
    refusedBy_own (name := .boothConfig) rfl ht rfl rfl fun x hx => doBoothConfig_refused hx, ?_⟩
  intro s cond tag booth outA outB modeByte count m1 m2 m3 m4 limit c ht hok ha ho hm hacc hlimit hlow hhigh hallow
    hdefined b
  have hconf := configured_boothConfigured s b c
  obtain ⟨rs, ns, htold, hchanged, hsame, hacts⟩ := hconf.told
  refine ⟨_, client_next (name := .boothConfig) ht rfl rfl
    (doBoothConfig_accepted hok ha ho hm hacc hlimit hlow hhigh hallow hdefined), ?_⟩
  refine ⟨?_, ?_, fun x hx => ?_, fun x n => ?_, ?_, ?_, ?_, fun l => ?_, fun x => ?_,
    ⟨rs, ns, answeredIf_after htold, hchanged, hsame,
      fun hne hrise => configActs_congr (hacts hne hrise) (by simp [b]) (by simp [b]) (by simp [b])⟩, ?_⟩
  · simpa using hconf.config
  · simpa using hconf.selected
  · simpa using hconf.others x hx
  · simpa using hconf.seats x n
  · simpa using hconf.link
  · simpa using hconf.granted
  · simpa using hconf.flash
  · simpa using hconf.language l
  · simpa using hconf.channel x
  · exact (hconf.hall.trans (onlyBooths_consume _ cond .ops).hall).trans (onlyBooths_after _ _ _ _ _).hall

end Sys2Proof.Machine
end
